-- ==== Sys2Proof/Word.lean ====
section
/-! DEFINITION. The word and byte types and the two arrays of words every other file speaks of
(spec/00_scope.md R5 to R7, R12; spec/20_memory.md R51). -/

namespace Sys2Proof

/-- A data word: an unsigned integer of exactly 32 bits (R5, R12). -/
abbrev Word := BitVec 32

/-- A byte of the byte-level output (R52). -/
abbrev Byte := BitVec 8

/-- A key: an ordered pair of words `k[0]`, `k[1]`, with no integer value of its own (R7, R13). -/
structure Key where
  w0 : Word
  w1 : Word
  deriving DecidableEq, Repr

/-- An array of four words in index order, element 0 first: a counter, or an output (R6, R13, R51). -/
structure Counter where
  w0 : Word
  w1 : Word
  w2 : Word
  w3 : Word
  deriving DecidableEq, Repr

end Sys2Proof
end

