-- ==== Sys2Proof/Machine/Operands.lean ====
section
/-! DEFINITION. The forms an array of words takes on a bus, as bytes and as an integer (spec/00_scope.md R12, R13;
spec/20_memory.md R51 to R55) and the two arithmetic primitives of the datapath. -/

namespace Sys2Proof.Machine

/-- `add32(a, b)`: addition modulo 2^32, the carry out of bit 31 dropped (R12). The sum is written with `b` first so that a
literal `b` (the key addends) is never unrolled as a successor when definitions are unfolded. -/
def add32 (a b : Word) : Word := BitVec.ofNat 32 (b.toNat + a.toNat)

/-- `mulhilo(m, a)`: the two halves `(hi, lo)` of the exact unsigned product (R12, conflict C8). -/
def mulhilo (m a : Word) : Word × Word :=
  (BitVec.ofNat 32 (m.toNat * a.toNat / 2 ^ 32), BitVec.ofNat 32 (m.toNat * a.toNat % 2 ^ 32))

/-- The words of a key in index order (R51). -/
def keyWords (k : Key) : List Word := [k.w0, k.w1]

/-- The words of a counter or output in index order (R51). -/
def counterWords (c : Counter) : List Word := [c.w0, c.w1, c.w2, c.w3]

/-- `pack` of a two-word array: word `i` at bits `32*i+31 : 32*i` (R54). -/
def packKey (k : Key) : BitVec 64 := k.w1 ++ k.w0

/-- The key that lies on a 64-bit bus (R54, R74). -/
def unpackKey (b : BitVec 64) : Key := ⟨b.extractLsb' 0 32, b.extractLsb' 32 32⟩

/-- `pack` of a four-word array: word `i` at bits `32*i+31 : 32*i` (R54). -/
def pack (c : Counter) : BitVec 128 := c.w3 ++ c.w2 ++ c.w1 ++ c.w0

/-- The four-word array that lies on a 128-bit bus (R54, R75, R82). -/
def unpack (b : BitVec 128) : Counter :=
  ⟨b.extractLsb' 0 32, b.extractLsb' 32 32, b.extractLsb' 64 32, b.extractLsb' 96 32⟩

/-- `val(w[0], w[1], …)`: a little-endian sequence of words as an integer, word 0 least significant (R13). -/
def wordsVal : List Word → Nat
  | [] => 0
  | w :: ws => w.toNat + 2 ^ 32 * wordsVal ws

/-- `val(c)` (R13). -/
def val (c : Counter) : Nat := wordsVal (counterWords c)

/-- `bytes(w)`: four bytes, least significant first (R52). -/
def bytes (w : Word) : List Byte :=
  [w.extractLsb' 0 8, w.extractLsb' 8 8, w.extractLsb' 16 8, w.extractLsb' 24 8]

/-- `word([b0, b1, b2, b3])`, the inverse of `bytes` (R52). -/
def word (b0 b1 b2 b3 : Byte) : Word :=
  BitVec.ofNat 32 (b0.toNat + 2 ^ 8 * b1.toNat + 2 ^ 16 * b2.toNat + 2 ^ 24 * b3.toNat)

/-- `bytes_of(a)`: the bytes of the words in array order, word 0's first (R53). -/
def bytesOf : List Word → List Byte
  | [] => []
  | w :: ws => bytes w ++ bytesOf ws

/-- Decoding a byte sequence four bytes at a time with `word` (R55); a rest of fewer than four bytes is dropped. -/
def wordsOf : List Byte → List Word
  | b0 :: b1 :: b2 :: b3 :: rest => word b0 b1 b2 b3 :: wordsOf rest
  | _ => []

/-- The integer whose byte `j` (bits `8*j+7 : 8*j`) is `B[j]` (R82). -/
def bytesVal : List Byte → Nat
  | [] => 0
  | b :: bs => b.toNat + 2 ^ 8 * bytesVal bs

/-- The `data` field that carries a byte sequence: `data[8*j+7 : 8*j] = B[j]` (R82, R113). -/
def dataOfBytes (bs : List Byte) : BitVec 128 := BitVec.ofNat 128 (bytesVal bs)

/-- Byte `j` of a `data` field, bits `8*j+7 : 8*j` (R82). -/
def dataByte (d : BitVec 128) (j : Nat) : Byte := d.extractLsb' (8 * j) 8

/-- The sixteen bytes a host takes out of a `data` field (R82). -/
def bytesOfData (d : BitVec 128) : List Byte := (List.range 16).map (dataByte d)

end Sys2Proof.Machine
end

