-- ==== Sys2Proof/Config.lean ====
section
/-! DEFINITION. The configuration of an instance (spec/00_scope.md R10): the three build-time parameters.
The checks on it are in Machine/Ops.lean, the hardwired datapath constants in Machine/Leaf.lean.
The spec leaves no value open that an instruction computes, so there is no free value here. -/

namespace Sys2Proof

/-- `cfg = (W, N, KN)`: word width, words per counter, words per key (R10). The round count is not part of it. -/
structure Config where
  w  : Nat
  n  : Nat
  kn : Nat
  deriving DecidableEq, Repr

/-- The configuration of this hardware, `(32, 4, 2)` (R10). -/
def Config.hardware : Config := ⟨32, 4, 2⟩

end Sys2Proof
end

