-- ==== Sys2Proof/Syntax.lean ====
section
/-! DEFINITION. The instructions: one constructor per row of spec/opcode_table.json (five commands of format CMD,
three leaf modules of format MOD), what the block is offered, and why a command word is illegal. -/

namespace Sys2Proof

/-- The rows of the opcode table. Every value of every operand is legal (R8, R74, R75). NEXT, NEXTB and PEEK have no
operands: the operand fields of their words are ignored (R77). -/
inductive Instr where
  /-- CONSTRUCT with operands `key`, `ctr`, `rounds` (R111). -/
  | construct (key : Key) (ctr : Counter) (rounds : BitVec 8)
  /-- NEXT (R112). -/
  | next
  /-- NEXTB (R113). -/
  | nextb
  /-- PEEK (R114). -/
  | peek
  /-- GEN with operands `key`, `ctr`, `rounds` (R115). -/
  | gen (key : Key) (ctr : Counter) (rounds : BitVec 8)
  /-- ROUND, the whole function of module `philox_round_function`, on its input ports (R85, R90). -/
  | round (ctr : Counter) (key : Key)
  /-- KEYADV, the whole function of module `key_schedule_adder`, on its input port (R85, R100). -/
  | keyadv (key : Key)
  /-- CTRINC, the whole function of module `counter_increment_ripple`, on its input port (R85, R130). -/
  | ctrinc (ctr : Counter)
  deriving DecidableEq, Repr

/-- What is presented to the block from outside: a command word on the command channel (R70), or values on the input
ports of one leaf module, all ports of the module as one vector (R85, R91, R101, R131; log entry 5). -/
inductive Offer where
  | command (cw : BitVec 208)
  | roundPorts (x : BitVec 192)
  | keyPorts (x : BitVec 64)
  | counterPorts (x : BitVec 128)
  deriving DecidableEq, Repr

/-- Why a command word decodes to `invalid` (R78, R86). -/
inductive Illegal where
  /-- `rsv` is not zero. -/
  | reservedNotZero
  /-- `rsv` is zero and `op` is 0, 6 or 7. -/
  | unassignedOp (op : BitVec 3)
  deriving DecidableEq, Repr

end Sys2Proof
end

