-- ==== Sys2Proof/WellFormed.lean ====
section
/-! DEFINITION. What is well formed: an instruction (always: spec/00_scope.md R8, spec/30_encoding.md R74, R75), a
command word the host may send (spec/30_encoding.md R86), and the word, counter and key lengths of a configuration
(spec/00_scope.md R10). The tests show an ill-formed term that each check refuses. -/

namespace Sys2Proof

/-- Every instruction is well formed: its operand types have exactly the widths of the fields, and every bit pattern
of a key, a counter and a round count is legal (R8, R74, R75, R156). One arm per constructor, so that a new one is
not passed over. -/
def Instr.wellFormed : Instr → Bool
  | .construct _ _ _ => true
  | .next => true
  | .nextb => true
  | .peek => true
  | .gen _ _ _ => true
  | .round _ _ => true
  | .keyadv _ => true
  | .ctrinc _ => true

/-- The `rsv` field of a command word is zero (R70). -/
def reservedZero (cw : BitVec 208) : Bool := cw.extractLsb' 3 5 == 0#5

/-- The `op` field of a command word is one of the five assigned codes (R76). -/
def opAssigned (cw : BitVec 208) : Bool :=
  1 ≤ (cw.extractLsb' 0 3).toNat && (cw.extractLsb' 0 3).toNat ≤ 5

/-- A command word the host may send: `rsv` zero and `op` assigned (R78, R86). Values on a leaf module's input ports
are all legal (R90, R100, R130). -/
def Offer.wellFormed : Offer → Bool
  | .command cw => reservedZero cw && opAssigned cw
  | .roundPorts _ => true
  | .keyPorts _ => true
  | .counterPorts _ => true

/-- The word width is 32 (R5). -/
def Config.widthOk (cfg : Config) : Bool := cfg.w == 32

/-- The key has half as many words as the counter, said without division (R10, conflict C2). -/
def Config.lengthOk (cfg : Config) : Bool := 2 * cfg.kn == cfg.n

/-- `cfg_valid(cfg)` (R10). -/
def Config.wellFormed (cfg : Config) : Bool := cfg.widthOk && cfg.lengthOk

end Sys2Proof
end

