-- ==== Sys2Proof/Decode.lean ====
section
/-! DEFINITION. Decoding a command word and a leaf module's input ports (spec/30_encoding.md R70 to R78, R85 to R87),
total and rejecting by name; the encoder; and the opcode table's numbering of an instruction's bits. -/

namespace Sys2Proof

open Machine

/-- `CW[2:0]`, the operation code (R70). -/
def opField (cw : BitVec 208) : BitVec 3 := cw.extractLsb' 0 3

/-- `CW[7:3]`, reserved (R70). -/
def rsvField (cw : BitVec 208) : BitVec 5 := cw.extractLsb' 3 5

/-- `CW[15:8]`, the round count operand, unsigned (R73). -/
def roundsField (cw : BitVec 208) : BitVec 8 := cw.extractLsb' 8 8

/-- `CW[79:16]` as an array of two words (R74). -/
def keyField (cw : BitVec 208) : Key := unpackKey (cw.extractLsb' 16 64)

/-- `CW[207:80]` as an array of four words (R75). -/
def ctrField (cw : BitVec 208) : Counter := unpack (cw.extractLsb' 80 128)

/-- `decode(CW)` (R86): `rsv` first, then `op` (the order only names the reason, log entry 15); nothing else is examined. -/
def decodeCommand (cw : BitVec 208) : Except Illegal Instr :=
  if rsvField cw = 0#5 then
    match (opField cw).toNat with
    | 1 => .ok (.construct (keyField cw) (ctrField cw) (roundsField cw))
    | 2 => .ok .next
    | 3 => .ok .nextb
    | 4 => .ok .peek
    | 5 => .ok (.gen (keyField cw) (ctrField cw) (roundsField cw))
    | _ => .error (.unassignedOp (opField cw))
  else .error .reservedNotZero

/-- Decoding of whatever is offered: a command word, or the input ports of a leaf module, for which every input
matches (R85). `c_in` is bits 127:0 and `k_in` bits 191:128 of ROUND's ports (DESIGN CHOICE, log entry 5). -/
def decode : Offer → Except Illegal Instr
  | .command cw => decodeCommand cw
  | .roundPorts x => .ok (.round (unpack (x.extractLsb' 0 128)) (unpackKey (x.extractLsb' 128 64)))
  | .keyPorts x => .ok (.keyadv (unpackKey x))
  | .counterPorts x => .ok (.ctrinc (unpack x))

/-- `ctr ++ key ++ rounds ++ rsv ++ op`, the command word of these fields with `rsv` zero (R70). -/
def commandWord (op : BitVec 3) (key : Key) (ctr : Counter) (rounds : BitVec 8) : BitVec 208 :=
  pack ctr ++ packKey key ++ rounds ++ 0#5 ++ op

/-- The command word of a command that uses no operand field, all of them zero: the canonical encoding (R77). -/
def bareWord (op : BitVec 3) : BitVec 208 := commandWord op ⟨0, 0⟩ ⟨0, 0, 0, 0⟩ 0

/-- The encoder: the canonical command word of R76 and R77, or the module's input ports. -/
def encode : Instr → Offer
  | .construct key ctr rounds => .command (commandWord 1 key ctr rounds)
  | .next => .command (bareWord 2)
  | .nextb => .command (bareWord 3)
  | .peek => .command (bareWord 4)
  | .gen key ctr rounds => .command (commandWord 5 key ctr rounds)
  | .round ctr key => .roundPorts (packKey key ++ pack ctr)
  | .keyadv key => .keyPorts (packKey key)
  | .ctrinc ctr => .counterPorts (pack ctr)

/-- What is offered when the opcode table's row has `nbits` bits and they are `w`: the row's width tells a leaf
module's ports (192, 64, 128 bits) from a command word; any other width is a command word whose bits above `nbits`
are 0 (log entry 14). -/
def offerOfTableWord (nbits w : Nat) : Offer :=
  if nbits = 192 then .roundPorts (BitVec.ofNat 192 w)
  else if nbits = 64 then .keyPorts (BitVec.ofNat 64 w)
  else if nbits = 128 then .counterPorts (BitVec.ofNat 128 w)
  else .command (BitVec.ofNat 208 (w % 2 ^ min nbits 208))

/-- The instruction the decoder reads from an instruction whose bits are `w`, as the opcode table numbers them. -/
def decodeTableWord (nbits w : Nat) : Option Instr :=
  match decode (offerOfTableWord nbits w) with
  | .ok i => some i
  | .error _ => none

end Sys2Proof
end

