-- ==== Sys2Proof/Machine/Leaf.lean ====
section
/-! DEFINITION. The three leaf functions ROUND, KEYADV, CTRINC (spec/40_round_function.md, spec/41_key_schedule.md,
spec/43_counter_increment.md), their hardwired constants (spec/00_scope.md R9), and the mix built from them
(spec/42_generator_commands.md R110). -/

namespace Sys2Proof.Machine

/-- Round multiplier `M0` (R9, R24). -/
def M0 : Word := 0xD2511F53

/-- Round multiplier `M1` (R9, R24). -/
def M1 : Word := 0xCD9E8D57

/-- Key addend `KA0` (R9, R24). -/
def KA0 : Word := 0x9E3779B9

/-- Key addend `KA1` (R9, R24). -/
def KA1 : Word := 0xBB67AE85

/-- ROUND (R90): the products cross over, and every output word is computed from the old input words. -/
def roundFn (c : Counter) (k : Key) : Counter where
  w0 := (mulhilo M1 c.w2).1 ^^^ c.w1 ^^^ k.w0
  w1 := (mulhilo M1 c.w2).2
  w2 := (mulhilo M0 c.w0).1 ^^^ c.w3 ^^^ k.w1
  w3 := (mulhilo M0 c.w0).2

/-- KEYADV (R100): no carry passes between the words. -/
def keyadv (k : Key) : Key := ⟨add32 k.w0 KA0, add32 k.w1 KA1⟩

/-- `j` applications of KEYADV (R103). -/
def keyadvN : Nat → Key → Key
  | 0, k => k
  | j + 1, k => keyadvN j (keyadv k)

/-- One word of the increment: the word with the carry added, and the carry out of it (R130). -/
def incWord (carry : Bool) (w : Word) : Word × Bool :=
  (BitVec.ofNat 32 (w.toNat + carry.toNat), carry && w == 0xFFFFFFFF)

/-- The ripple-carry increment over any number of words, word 0 first, the last carry dropped (R130). -/
def incWords : Bool → List Word → List Word
  | _, [] => []
  | carry, w :: ws => (incWord carry w).1 :: incWords (incWord carry w).2 ws

/-- CTRINC on the four words of a counter (R130): the carry into each word is the carry out of the one below it. -/
def ctrinc (c : Counter) : Counter where
  w0 := (incWord true c.w0).1
  w1 := (incWord (incWord true c.w0).2 c.w1).1
  w2 := (incWord (incWord (incWord true c.w0).2 c.w1).2 c.w2).1
  w3 := (incWord (incWord (incWord (incWord true c.w0).2 c.w1).2 c.w2).2 c.w3).1

/-- `n` applications of CTRINC. -/
def ctrincN : Nat → Counter → Counter
  | 0, c => c
  | n + 1, c => ctrincN n (ctrinc c)

/-- `mix(k, c, r)` (R110): in each iteration ROUND first, with the key not yet advanced. -/
def mix (k : Key) (c : Counter) : Nat → Counter
  | 0 => c
  | r + 1 => mix (keyadv k) (roundFn c k) r

end Sys2Proof.Machine
end

