-- ==== Sys2Proof/Machine/State.lean ====
section
/-! DEFINITION. The state of one instance of the block (spec/10_state.md R20, R34), its two channels, and the reasons a
step can stop. There is no memory (spec/20_memory.md R50) and no program counter (R25). -/

namespace Sys2Proof.Machine

/-- Which command is in progress (R28). -/
inductive Kind where
  | next
  | nextb
  | gen
  deriving DecidableEq, Repr

/-- Whether a command is in progress (R30). Not a mode (conflict C3). -/
inductive Phase where
  | idle
  | run
  deriving DecidableEq, Repr

/-- The `err` field of a response: OK, or a ConfigurationError with its cause (R81). Code 11 is never produced and is
no value here (U6). -/
inductive Err where
  | ok
  | width
  | length
  deriving DecidableEq, Repr

/-- A response word, `err ++ data` (R80). -/
structure Response where
  err  : Err
  data : BitVec 128
  deriving DecidableEq, Repr

/-- What the output port of a leaf module shows for the inputs it was given (R91, R101, R131; log entry 5). -/
inductive LeafOutput where
  /-- `c_out` of `philox_round_function`. -/
  | roundOut (cOut : BitVec 128)
  /-- `k_out` of `key_schedule_adder`. -/
  | keyOut (kOut : BitVec 64)
  /-- `ctr_out` of `counter_increment_ripple`. -/
  | counterOut (ctrOut : BitVec 128)
  deriving DecidableEq, Repr

/-- Why the machine stops with a fault. All are safe: the model stops where the hardware might go on. -/
inductive Fault where
  /-- Raised by NEXT, NEXTB and PEEK while `CONSTRUCTED = 0` (R121, R158); names the command by its index in the
  command sequence, the first being 1. Safe: no source says what the hardware does. -/
  | useBeforeConstruct (index : Nat)
  /-- Raised by accepting a command word that decodes to `invalid` (R78, R158), on any configuration (log entry 17);
  names the command by its index, and why it is invalid. Safe: no source says what the hardware does. -/
  | illegalCommand (index : Nat) (why : Illegal)
  /-- Raised by the controller when `PH = RUN` and `RI > RT`: no step of R140 is enabled. Safe: no run reaches such a
  state (log entry 8). -/
  | noStepEnabled
  deriving DecidableEq, Repr

/-- Why an instruction is given no meaning. -/
inductive Refusal where
  /-- An instruction that has no meaning in the model yet. Raised by an arm of `exec` alone; no arm does. Safe. -/
  | notModelled (mnemonic : String)
  /-- `UnsupportedConfiguration` (R160): any command on a valid configuration with `N` other than 4, GEN and the leaf
  functions on any configuration other than the datapath's. Safe: no source defines that datapath. -/
  | unsupportedConfiguration
  deriving DecidableEq, Repr

/-- One instance of the block: its build-time configuration, the registers of R20 under the spec's names, what the
host has offered and what it was answered, and the model's two records. -/
structure State where
  /-- The configuration the instance was built with; no register, and written by nothing (R10, R24; log entry 1). -/
  cfg : Config
  /-- `K`, the stored key (R21). -/
  k : Key
  /-- `C`, the stored counter, the stream position (R22). -/
  c : Counter
  /-- `ROUNDS`, the round count of this generator (R23). -/
  rounds : BitVec 8
  /-- `CONSTRUCTED`: `K`, `C`, `ROUNDS` hold a generator (R29). -/
  constructed : Bool
  /-- `SK`, the scratch key (R27). -/
  sk : Key
  /-- `SC`, the scratch counter (R27). -/
  sc : Counter
  /-- `RI`, the rounds already done (R26). -/
  ri : BitVec 8
  /-- `RT`, the rounds to do (R26). -/
  rt : BitVec 8
  /-- `KIND`, the command in progress (R28). -/
  kind : Kind
  /-- `PH`, whether a command is in progress (R30). -/
  ph : Phase
  /-- What has been offered and not yet accepted, oldest first (R144, R181). Commands and leaf-port values stand in this
  one line (DESIGN CHOICE, log entry 18). -/
  offered : List Offer
  /-- How many commands have been accepted since reset: the model's record, for R158 and R182 (log entry 9). -/
  accepted : Nat
  /-- The response stream, oldest first (R80, R120; U10). -/
  responses : List Response
  /-- The output-port values of the leaf evaluations, oldest first: the model's record (log entry 5). -/
  leafOutputs : List LeafOutput
  deriving DecidableEq, Repr

/-- The state after reset (R34, R170): not constructed, idle, nothing offered, nothing answered, on this hardware's
configuration. The spec gives no value to `K`, `C`, `ROUNDS`, `SK`, `SC`, `RI`, `RT`, `KIND`; the zeros (and NEXT)
are DESIGN CHOICE, log entry 2. -/
def State.reset : State where
  cfg := Config.hardware
  k := ⟨0, 0⟩
  c := ⟨0, 0, 0, 0⟩
  rounds := 0
  constructed := false
  sk := ⟨0, 0⟩
  sc := ⟨0, 0, 0, 0⟩
  ri := 0
  rt := 0
  kind := .next
  ph := .idle
  offered := []
  accepted := 0
  responses := []
  leafOutputs := []

end Sys2Proof.Machine
end

