-- ==== Sys2Proof/Machine/Ops.lean ====
section
/-! DEFINITION. The named operations on the state that the meanings share: the configuration checks, the one
exception (ConfigurationError), reading the generator, writing the registers, the response and leaf channels, and what
the host does (offer, reset). -/

namespace Sys2Proof.Machine

/-! ## The configuration (spec/00_scope.md R10, spec/60_exceptions.md R151, R153, R160) -/

/-- The ConfigurationError an instance raises, if any: WIDTH before LENGTH (R111, R151, R153). -/
def configError? (cfg : Config) : Option Err :=
  if cfg.w ≠ 32 then some .width
  else if 2 * cfg.kn ≠ cfg.n then some .length
  else none

/-- The configuration is one the datapath exists for: valid, and `N = 4` (R6, R111, R160). -/
def supported (cfg : Config) : Bool := configError? cfg == none && cfg.n == 4

/-- The configuration passes `cfg_valid` and yet has no datapath in any source: `N` is not 4 (R160). -/
def validWithoutDatapath (cfg : Config) : Bool := configError? cfg == none && cfg.n != 4

/-! ## Responses (spec/30_encoding.md R80 to R82) -/

/-- The two bits of an `err` value (R81). -/
def errCode : Err → BitVec 2
  | .ok => 0b00
  | .width => 0b01
  | .length => 0b10

/-- The 130-bit response word `err ++ data` (R80). -/
def responseWord (r : Response) : BitVec 130 := errCode r.err ++ r.data

/-- `respond(err, data)`: append one response to the stream (R80, R120). -/
def State.respond (s : State) (err : Err) (data : BitVec 128) : State :=
  { s with responses := s.responses ++ [⟨err, data⟩] }

/-! ## The exception -/

/-- Taking a ConfigurationError (R154): one response with the cause and `data = 0`, and nothing else; no handler, no
saved state, no mode. There is no return from it (R155): the next command is taken as before. -/
def State.raiseConfigurationError (s : State) (cause : Err) : State := s.respond cause 0

/-! ## Registers -/

/-- The generator the block holds, as CONSTRUCT supplied it and NEXT moved it on. -/
structure Generator where
  key     : Key
  counter : Counter
  rounds  : BitVec 8
  deriving DecidableEq, Repr

/-- What `K`, `C`, `ROUNDS` hold: no value while `CONSTRUCTED = 0` (R29, R33, R34), else their contents. Every read of
the three by a command goes through here, so the values the model gives them at reset (log entry 2) are never read. -/
def State.generator? (s : State) : Option Generator :=
  if s.constructed then some ⟨s.k, s.c, s.rounds⟩ else none

/-- `K <- k`, `C <- c`, `ROUNDS <- r`, `CONSTRUCTED <- 1` (R111). -/
def State.storeGenerator (s : State) (k : Key) (c : Counter) (r : BitVec 8) : State :=
  { s with k := k, c := c, rounds := r, constructed := true }

/-- `C <- CTRINC(C)` (R112, R113, R143). -/
def State.advanceCounter (s : State) : State := { s with c := ctrinc s.c }

/-- What the rounds of one command leave in the hidden registers, from ACCEPT to FINISH: `SK`, `SC` after `r`
ROUNDSTEPs, `RI = RT = r`, `KIND`, and `PH` back at IDLE (R145; DEDUCED, log entry 4). -/
def State.ranRounds (s : State) (kind : Kind) (k : Key) (c : Counter) (r : BitVec 8) : State :=
  { s with sk := keyadvN r.toNat k, sc := mix k c r.toNat, ri := r, rt := r, kind := kind, ph := .idle }

/-! ## Guards -/

/-- Go on only on the configuration the datapath exists for; refuse `UnsupportedConfiguration` otherwise (R160). -/
def requireDatapath (s : State) (body : Host.Outcome State Fault Refusal) : Host.Outcome State Fault Refusal :=
  if supported s.cfg then body else .refused .unsupportedConfiguration

/-- Read the generator. A valid configuration without a datapath is refused for every command (R160); a read of
`none` is the fault UseBeforeConstruct of the command being carried out, the last one accepted (R33, R121, R158). A
generator on an invalid configuration, which no CONSTRUCT makes, is refused (log entry 7). -/
def readGenerator (s : State) (body : Generator → Host.Outcome State Fault Refusal) :
    Host.Outcome State Fault Refusal :=
  if validWithoutDatapath s.cfg then .refused .unsupportedConfiguration
  else match s.generator? with
    | none => .fault (.useBeforeConstruct s.accepted)
    | some g => requireDatapath s (body g)

/-! ## The leaf channel -/

/-- Record what a leaf module's output port shows (log entry 5). No register changes (R92, R102, R135). -/
def State.observe (s : State) (o : LeafOutput) : State :=
  { s with leafOutputs := s.leafOutputs ++ [o] }

/-! ## What the host does (spec/70_reset_and_hazards.md R170 to R172, R181) -/

/-- The host offers something; it is held behind what is already offered (R144). -/
def State.offer (s : State) (o : Offer) : State := { s with offered := s.offered ++ [o] }

/-- The host offers something in a way that the block takes it in the very next step: first in the line, and no command
in progress (log entry 3). -/
def State.offerFirst (s : State) (o : Offer) : State := { s with ph := .idle, offered := o :: s.offered }

/-- The reset event: the state of R34, on the instance as it was built. A command in progress is abandoned and held
commands are discarded (R172; log entry 11). -/
def State.applyReset (s : State) : State := { State.reset with cfg := s.cfg }

/-- How many commands an offer is: one for a command word, none for a leaf evaluation. -/
def commandCount : Offer → Nat
  | .command _ => 1
  | .roundPorts _ => 0
  | .keyPorts _ => 0
  | .counterPorts _ => 0

/-- The state in which the first thing offered is carried out: it is no longer offered, and counts as accepted. -/
def State.take (s : State) (o : Offer) (rest : List Offer) : State :=
  { s with offered := rest, accepted := s.accepted + commandCount o }

/-- What an idle block does next. -/
inductive Fetched where
  /-- Nothing is offered (R166). -/
  | nothing
  /-- An instruction, and the state it is carried out in. -/
  | instr (i : Instr) (s : State)
  /-- A command word that decodes to `invalid`, and the fault it is (R78, R158). -/
  | invalid (f : Fault)
  deriving DecidableEq, Repr

/-- Take the first thing offered and decode it (R61, R86, R141). An invalid word is the fault on every configuration, also
on a valid one with `N` other than 4, where R160 refuses every command: which of the two comes first the spec leaves open
(DESIGN CHOICE, log entry 17). -/
def fetch (s : State) : Fetched :=
  match s.offered with
  | [] => .nothing
  | o :: rest =>
    match decode o with
    | .ok i => .instr i (s.take o rest)
    | .error why => .invalid (.illegalCommand (s.take o rest).accepted why)

end Sys2Proof.Machine
end

