-- ==== Sys2Proof/Machine/Generator.lean ====
section
/-! DEFINITION. The meanings of the five commands of `philox_generator_top` (spec/42_generator_commands.md R111 to
R115), each atomic: one change of state and one response (spec/00_scope.md R11). -/

namespace Sys2Proof.Machine

/-- CONSTRUCT (R111): the two configuration checks, the refusal for a valid configuration without a datapath, then the
three registers and the flag. -/
def execConstruct (k : Key) (c : Counter) (r : BitVec 8) (s : State) : Host.Outcome State Fault Refusal :=
  match configError? s.cfg with
  | some cause => .next (s.raiseConfigurationError cause)
  | none => requireDatapath s (.next ((s.storeGenerator k c r).respond .ok 0))

/-- NEXT (R112): the mix of the counter before the increment, as four words; the key is not advanced. -/
def execNext (s : State) : Host.Outcome State Fault Refusal :=
  readGenerator s fun g =>
    .next (((s.ranRounds .next g.key g.counter g.rounds).advanceCounter).respond .ok
      (pack (mix g.key g.counter g.rounds.toNat)))

/-- NEXTB (R113): the state change of NEXT; the output as sixteen bytes, encoded explicitly. -/
def execNextb (s : State) : Host.Outcome State Fault Refusal :=
  readGenerator s fun g =>
    .next (((s.ranRounds .nextb g.key g.counter g.rounds).advanceCounter).respond .ok
      (dataOfBytes (bytesOf (counterWords (mix g.key g.counter g.rounds.toNat)))))

/-- PEEK (R114): the stored counter; nothing changes. -/
def execPeek (s : State) : Host.Outcome State Fault Refusal :=
  readGenerator s fun g => .next (s.respond .ok (pack g.counter))

/-- GEN (R115): the mix of the operands; `K`, `C`, `ROUNDS`, `CONSTRUCTED` are neither read nor written. -/
def execGen (k : Key) (c : Counter) (r : BitVec 8) (s : State) : Host.Outcome State Fault Refusal :=
  requireDatapath s (.next ((s.ranRounds .gen k c r).respond .ok (pack (mix k c r.toNat))))

end Sys2Proof.Machine
end

