-- ==== Sys2Proof/Machine/Modules.lean ====
section
/-! DEFINITION. The meanings of the opcode table's three MOD rows: a leaf module on its own, given values on its input
ports (spec/30_encoding.md R85; spec/40_round_function.md R91, R92; spec/41_key_schedule.md R101, R102;
spec/43_counter_increment.md R131, R135). Evaluating one changes no register; what its output port shows is recorded.
On a configuration the functions are not defined for, they are refused (R96, R105; log entry 6). -/

namespace Sys2Proof.Machine

/-- ROUND: `c_out = pack(ROUND(c, k))` (R90, R91). -/
def execRound (c : Counter) (k : Key) (s : State) : Host.Outcome State Fault Refusal :=
  requireDatapath s (.next (s.observe (.roundOut (pack (roundFn c k)))))

/-- KEYADV: `k_out = pack(KEYADV(k))` (R100, R101). -/
def execKeyadv (k : Key) (s : State) : Host.Outcome State Fault Refusal :=
  requireDatapath s (.next (s.observe (.keyOut (packKey (keyadv k)))))

/-- CTRINC: `ctr_out = pack(CTRINC(c))` (R130, R131). -/
def execCtrinc (c : Counter) (s : State) : Host.Outcome State Fault Refusal :=
  requireDatapath s (.next (s.observe (.counterOut (pack (ctrinc c)))))

end Sys2Proof.Machine
end

