-- ==== Sys2Proof/Machine/Dispatch.lean ====
section
/-! DEFINITION. One arm per instruction, each one direct call of its meaning. -/

namespace Sys2Proof.Machine

def exec (i : Instr) (s : State) : Host.Outcome State Fault Refusal :=
  match i with
  | .construct k c r => Sys2Proof.Machine.execConstruct k c r s
  | .next => Sys2Proof.Machine.execNext s
  | .nextb => Sys2Proof.Machine.execNextb s
  | .peek => Sys2Proof.Machine.execPeek s
  | .gen k c r => Sys2Proof.Machine.execGen k c r s
  | .round c k => Sys2Proof.Machine.execRound c k s
  | .keyadv k => Sys2Proof.Machine.execKeyadv k s
  | .ctrinc c => Sys2Proof.Machine.execCtrinc c s

end Sys2Proof.Machine
end

