-- ==== Sys2Proof/Machine/Flags.lean ====
section
/-! DEFINITION. The block has no condition codes (spec/10_state.md R31): no carry, overflow, zero or wrap indication is
computed anywhere. Its two flags gate behaviour: `CONSTRUCTED` (R29; read in Ops.lean through `generator?`) and `PH`
(R30), which with `RI` and `RT` says which controller step is enabled (spec/44_round_controller.md R140). -/

namespace Sys2Proof.Machine

/-- ACCEPT is enabled: idle, and the host offers something (R140). R140 speaks of a command; that leaf-port values count as
well is DESIGN CHOICE, log entry 18. -/
def acceptEnabled (s : State) : Bool := s.ph == .idle && s.offered != []

/-- ROUNDSTEP is enabled: `PH = RUN` and `RI < RT` (R140). -/
def roundStepEnabled (s : State) : Bool := s.ph == .run && decide (s.ri.toNat < s.rt.toNat)

/-- FINISH is enabled: `PH = RUN` and `RI = RT` (R140). -/
def finishEnabled (s : State) : Bool := s.ph == .run && s.ri == s.rt

end Sys2Proof.Machine
end

