-- ==== Sys2Proof/Machine/Controller.lean ====
section
/-! DEFINITION. The round controller as a step machine, one step per round (spec/44_round_controller.md R140 to R143).
It is a second, finer machine over the same State; Step.lean's command-level step uses its ROUNDSTEP and FINISH for a
command that is in progress. -/

namespace Sys2Proof.Machine

/-- ACCEPT's writes for a command that runs rounds (R141). -/
def State.loadScratch (s : State) (kind : Kind) (k : Key) (c : Counter) (r : BitVec 8) : State :=
  { s with sk := k, sc := c, rt := r, ri := 0, kind := kind, ph := .run }

/-- ROUNDSTEP's writes, simultaneous: ROUND sees the key before this step's advance (R142). -/
def State.roundStep (s : State) : State :=
  { s with sc := roundFn s.sc s.sk, sk := keyadv s.sk, ri := BitVec.ofNat 8 (s.ri.toNat + 1) }

/-- FINISH's write of the stored counter: for NEXT and NEXTB only (R143). -/
def State.finishCounter (s : State) : State :=
  match s.kind with
  | .next => s.advanceCounter
  | .nextb => s.advanceCounter
  | .gen => s

/-- `PH <- IDLE`. -/
def State.toIdle (s : State) : State := { s with ph := .idle }

/-- FINISH (R143): the increment applies to `C`, the response is `SC`. -/
def State.finish (s : State) : State := (s.finishCounter.respond .ok (pack s.sc)).toIdle

/-- The controller's step while `PH = RUN` (R140, R142, R143). -/
def runStep (s : State) : Host.Outcome State Fault Refusal :=
  if roundStepEnabled s then .next s.roundStep
  else if finishEnabled s then .next s.finish
  else .fault .noStepEnabled

/-- ACCEPT (R141): CONSTRUCT and PEEK whole, the others load the scratch registers. A leaf module evaluated on its own
takes no part in the controller. -/
def accept (i : Instr) (s : State) : Host.Outcome State Fault Refusal :=
  match i with
  | .construct k c r => execConstruct k c r s
  | .next => readGenerator s fun g => .next (s.loadScratch .next g.key g.counter g.rounds)
  | .nextb => readGenerator s fun g => .next (s.loadScratch .nextb g.key g.counter g.rounds)
  | .peek => execPeek s
  | .gen k c r => requireDatapath s (.next (s.loadScratch .gen k c r))
  | .round c k => execRound c k s
  | .keyadv k => execKeyadv k s
  | .ctrinc c => execCtrinc c s

/-- One step of the controller's machine (R140). With nothing offered the block stays as it is (R166). Values for a leaf
module's ports stand in the one line with the commands and are held while `PH = RUN`, as R144 says of commands (DESIGN
CHOICE, log entry 18). -/
def controllerStep (s : State) : Host.Outcome State Fault Refusal :=
  match s.ph with
  | .run => runStep s
  | .idle =>
    match fetch s with
    | .nothing => .next s
    | .instr i t => accept i t
    | .invalid f => .fault f

/-- The controller's machine, so that `Host.Core.run` runs it. -/
def controller : Host.Core where
  State := State
  Fault := Fault
  Refusal := Refusal
  step := controllerStep
  reset := State.reset

end Sys2Proof.Machine
end

