-- ==== Sys2Proof/Machine/Step.lean ====
section
/-! DEFINITION. The machine's step, at the command level (spec/00_scope.md R11): an idle block takes the first thing
offered and carries it out whole. A command that is in progress (which only the finer machine of Controller.lean, or a
state given as such, can show) is carried on by the controller's own step, and nothing is accepted meanwhile (R144). -/

namespace Sys2Proof.Machine

/-- One step. An evaluation of a leaf module that is offered while a command is in progress waits for its FINISH, behind
what was offered before it (DESIGN CHOICE, log entry 18). -/
def step (s : State) : Host.Outcome State Fault Refusal :=
  match s.ph with
  | .run => runStep s
  | .idle =>
    match fetch s with
    | .nothing => .next s
    | .instr i t => exec i t
    | .invalid f => .fault f

/-- `s` with the instruction of a table row offered so that the very next step takes it. The block fetches nothing
(R63): this stands for the host's offer (log entry 3). -/
def State.withFetchWord (s : State) (nbits w : Nat) : State := s.offerFirst (offerOfTableWord nbits w)

end Sys2Proof.Machine
end

