-- ==== Sys2Proof/Machine/Text.lean ====
section
/-! DEFINITION. The textual form of a command line (spec/30_encoding.md R83, R84): printing a command and its response,
and reading a line back. Text is a list of characters. Spacing and letter case: log entry 13. -/

namespace Sys2Proof.Machine

/-! ## Digits -/

/-- One hexadecimal digit, lower case. -/
def hexChar (d : Nat) : Char :=
  match d with
  | 0 => '0' | 1 => '1' | 2 => '2' | 3 => '3' | 4 => '4' | 5 => '5' | 6 => '6' | 7 => '7'
  | 8 => '8' | 9 => '9' | 10 => 'a' | 11 => 'b' | 12 => 'c' | 13 => 'd' | 14 => 'e' | _ => 'f'

/-- The value of a hexadecimal digit, either case. -/
def hexValue (ch : Char) : Option Nat :=
  if 48 ≤ ch.toNat ∧ ch.toNat ≤ 57 then some (ch.toNat - 48)
  else if 97 ≤ ch.toNat ∧ ch.toNat ≤ 102 then some (ch.toNat - 87)
  else if 65 ≤ ch.toNat ∧ ch.toNat ≤ 70 then some (ch.toNat - 55)
  else none

/-- The value of a decimal digit. -/
def decValue (ch : Char) : Option Nat :=
  if 48 ≤ ch.toNat ∧ ch.toNat ≤ 57 then some (ch.toNat - 48) else none

/-- `n` hexadecimal digits of `v`, most significant first. -/
def hexText : Nat → Nat → List Char
  | 0, _ => []
  | n + 1, v => hexChar (v / 16 ^ n % 16) :: hexText n v

/-- The number a digit sequence in base `base` stands for, read from the left after `acc`. -/
def digitsNat (base : Nat) (value : Char → Option Nat) : Nat → List Char → Option Nat
  | acc, [] => some acc
  | acc, ch :: rest =>
    match value ch with
    | some d => digitsNat base value (acc * base + d) rest
    | none => none

/-- A round count in decimal, without leading zeros. -/
def roundsText (r : BitVec 8) : List Char :=
  if r.toNat < 10 then [hexChar r.toNat]
  else if r.toNat < 100 then [hexChar (r.toNat / 10), hexChar (r.toNat % 10)]
  else [hexChar (r.toNat / 100), hexChar (r.toNat / 10 % 10), hexChar (r.toNat % 10)]

/-- A word: 8 hexadecimal digits without prefix. -/
def wordText (w : Word) : List Char := hexText 8 w.toNat

/-- A byte: 2 hexadecimal digits. -/
def byteText (b : Byte) : List Char := hexText 2 b.toNat

/-- A word token: exactly 8 hexadecimal digits. -/
def readWord (t : List Char) : Option Word :=
  if t.length = 8 then (digitsNat 16 hexValue 0 t).map (BitVec.ofNat 32) else none

/-- A byte token: exactly 2 hexadecimal digits. -/
def readByte (t : List Char) : Option Byte :=
  if t.length = 2 then (digitsNat 16 hexValue 0 t).map (BitVec.ofNat 8) else none

/-- A round count token: decimal, 0 to 255. -/
def readRounds (t : List Char) : Option (BitVec 8) :=
  match t, digitsNat 10 decValue 0 t with
  | _ :: _, some n => if n ≤ 255 then some (BitVec.ofNat 8 n) else none
  | _, _ => none

/-! ## Printing -/

/-- Items separated by one space. -/
def spaced : List (List Char) → List Char
  | [] => []
  | [t] => t
  | t :: ts => t ++ ' ' :: spaced ts

def textConstruct : List Char := ['C', 'O', 'N', 'S', 'T', 'R', 'U', 'C', 'T']
def textNext : List Char := ['N', 'E', 'X', 'T']
def textNextb : List Char := ['N', 'E', 'X', 'T', 'B']
def textPeek : List Char := ['P', 'E', 'E', 'K']
def textGen : List Char := ['G', 'E', 'N']
def textOk : List Char := ['o', 'k']
def textErr : List Char := ['e', 'r', 'r']
def textWidth : List Char := ['W', 'I', 'D', 'T', 'H']
def textLength : List Char := ['L', 'E', 'N', 'G', 'T', 'H']
def textArrow : List Char := ['-', '>']

/-- `k0 k1, c0 c1 c2 c3, r`: the key first, words in index order. -/
def operandsText (k : Key) (c : Counter) (r : BitVec 8) : List Char :=
  spaced ((keyWords k).map wordText) ++ ',' :: ' ' :: spaced ((counterWords c).map wordText)
    ++ ',' :: ' ' :: roundsText r

/-- The line of a command; the leaf functions are no commands and have none (R85). -/
def instrText : Instr → Option (List Char)
  | .construct k c r => some (textConstruct ++ ' ' :: operandsText k c r)
  | .next => some textNext
  | .nextb => some textNextb
  | .peek => some textPeek
  | .gen k c r => some (textGen ++ ' ' :: operandsText k c r)
  | .round _ _ => none
  | .keyadv _ => none
  | .ctrinc _ => none

/-- An expected response as a line gives it. -/
inductive Expect where
  | ok
  | errWidth
  | errLength
  | words (out : Counter)
  | bytes (bs : List Byte)
  deriving DecidableEq, Repr

/-- The text after `-> `. -/
def expectText : Expect → List Char
  | .ok => textOk
  | .errWidth => textErr ++ ' ' :: textWidth
  | .errLength => textErr ++ ' ' :: textLength
  | .words out => spaced ((counterWords out).map wordText)
  | .bytes bs => spaced (bs.map byteText)

/-- How the host reads the response of a command: four words, sixteen bytes for NEXTB, `ok` for CONSTRUCT, or the error
(R82, R83). -/
def expectOf (i : Instr) (r : Response) : Expect :=
  match r.err with
  | .width => .errWidth
  | .length => .errLength
  | .ok =>
    match i with
    | .construct _ _ _ => .ok
    | .next => .words (unpack r.data)
    | .nextb => .bytes (bytesOfData r.data)
    | .peek => .words (unpack r.data)
    | .gen _ _ _ => .words (unpack r.data)
    | .round _ _ => .ok
    | .keyadv _ => .ok
    | .ctrinc _ => .ok

/-! ## Reading -/

/-- The token read so far, if it has a character. -/
def flush (cur : List Char) : List (List Char) := if cur = [] then [] else [cur.reverse]

/-- The tokens of a line: spaces separate, a comma is a token of its own, `#` starts a comment. `cur` is the token read so
far, last character first. -/
def tokens : List Char → List Char → List (List Char)
  | [], cur => flush cur
  | ch :: rest, cur =>
    if ch = '#' then flush cur
    else if ch = ' ' then flush cur ++ tokens rest []
    else if ch = ',' then flush cur ++ [','] :: tokens rest []
    else tokens rest (ch :: cur)

/-- Every item, or none if one is none. -/
def allSome {α : Type} : List (Option α) → Option (List α)
  | [] => some []
  | some a :: rest => (allSome rest).map (a :: ·)
  | none :: _ => none

/-- The operands of CONSTRUCT and GEN, and the tokens after them. -/
def readOperands : List (List Char) → Option (Key × Counter × BitVec 8 × List (List Char))
  | k0 :: k1 :: [','] :: c0 :: c1 :: c2 :: c3 :: [','] :: r :: rest =>
    match readWord k0, readWord k1, readWord c0, readWord c1, readWord c2, readWord c3, readRounds r with
    | some k0, some k1, some c0, some c1, some c2, some c3, some r => some (⟨k0, k1⟩, ⟨c0, c1, c2, c3⟩, r, rest)
    | _, _, _, _, _, _, _ => none
  | _ => none

/-- The expected response after `->`. -/
def readExpect (ts : List (List Char)) : Option Expect :=
  if ts = [textOk] then some .ok
  else if ts = [textErr, textWidth] then some .errWidth
  else if ts = [textErr, textLength] then some .errLength
  else match ts with
    | [a, b, c, d] =>
      match readWord a, readWord b, readWord c, readWord d with
      | some a, some b, some c, some d => some (.words ⟨a, b, c, d⟩)
      | _, _, _, _ => none
    | _ => if ts.length = 16 then (allSome (ts.map readByte)).map .bytes else none

/-- A line: a command with or without its expected response, or nothing but a comment. -/
structure Line where
  command : Option Instr
  expect  : Option Expect
  deriving DecidableEq, Repr

/-- What may follow a command: nothing, or `->` and the expected response. -/
def readTail (i : Instr) (ts : List (List Char)) : Option Line :=
  match ts with
  | [] => some ⟨some i, none⟩
  | t :: rest => if t = textArrow then (readExpect rest).map fun e => ⟨some i, some e⟩ else none

/-- A line's tokens as a line (R83). -/
def readTokens (ts : List (List Char)) : Option Line :=
  match ts with
  | [] => some ⟨none, none⟩
  | t :: rest =>
    if t = textConstruct then
      match readOperands rest with
      | some (k, c, r, tail) => readTail (.construct k c r) tail
      | none => none
    else if t = textGen then
      match readOperands rest with
      | some (k, c, r, tail) => readTail (.gen k c r) tail
      | none => none
    else if t = textNext then readTail .next rest
    else if t = textNextb then readTail .nextb rest
    else if t = textPeek then readTail .peek rest
    else none

/-- Read a line. -/
def readLine (text : List Char) : Option Line := readTokens (tokens text [])

/-- The command word a line stands for: exactly one, there being no pseudo-instructions (R84). -/
def assemble (text : List Char) : Option Offer :=
  match readLine text with
  | some ⟨some i, _⟩ => some (encode i)
  | _ => none

end Sys2Proof.Machine
end

