-- ==== Sys2Proof/Safety.lean ====
section
/-! DEFINITION. The terms claims use: what a good run is (spec/70_reset_and_hazards.md R181, R182), the invariants of
the machine, the inverse functions of the laws (spec/40_round_function.md R93), and what a host can tell apart
(spec/10_state.md R37). Nothing here is part of the machine. -/

namespace Sys2Proof.Safety

open Machine

/-! ## Outcomes -/

/-- The next state of an outcome, if it has one. -/
def nextState? : Host.Outcome State Fault Refusal → Option State
  | .next s => some s
  | .fault _ => none
  | .refused _ => none

/-- The fault of an outcome, if it is one. -/
def fault? : Host.Outcome State Fault Refusal → Option Fault
  | .next _ => none
  | .fault f => some f
  | .refused _ => none

/-- The refusal of an outcome, if it is one. -/
def refusal? : Host.Outcome State Fault Refusal → Option Refusal
  | .next _ => none
  | .fault _ => none
  | .refused q => some q

/-- Run `n` command-level steps. -/
def runSteps (n : Nat) (s : State) : Host.Outcome State Fault Refusal := core.run n s

/-- Run `n` steps of the controller's machine. -/
def runController (n : Nat) (s : State) : Host.Outcome State Fault Refusal := controller.run n s

/-! ## Instructions -/

/-- The instruction is a command, not a leaf module on its own (R85). -/
def isCommand : Instr → Bool
  | .construct _ _ _ => true
  | .next => true
  | .nextb => true
  | .peek => true
  | .gen _ _ _ => true
  | .round _ _ => false
  | .keyadv _ => false
  | .ctrinc _ => false

/-- The command reads the stored generator (R121). -/
def needsGenerator : Instr → Bool
  | .construct _ _ _ => false
  | .next => true
  | .nextb => true
  | .peek => true
  | .gen _ _ _ => false
  | .round _ _ => false
  | .keyadv _ => false
  | .ctrinc _ => false

/-- The command makes a generator (R111). -/
def isConstruct : Instr → Bool
  | .construct _ _ _ => true
  | .next => false
  | .nextb => false
  | .peek => false
  | .gen _ _ _ => false
  | .round _ _ => false
  | .keyadv _ => false
  | .ctrinc _ => false

/-- The command draws an output and so advances the counter (R22). -/
def isDraw : Instr → Bool
  | .construct _ _ _ => false
  | .next => true
  | .nextb => true
  | .peek => false
  | .gen _ _ _ => false
  | .round _ _ => false
  | .keyadv _ => false
  | .ctrinc _ => false

/-! ## Runs -/

/-- The host keeps its duties over a sequence of offers (R181): every command word is legal, and NEXT, NEXTB and PEEK come
only when a generator is there, as `constructed` says at the start. -/
def dutiesKept : Bool → List Offer → Bool
  | _, [] => true
  | constructed, o :: rest =>
    match decode o with
    | .error _ => false
    | .ok i => (!needsGenerator i || constructed) && dutiesKept (constructed || isConstruct i) rest

/-- How many command words a sequence of offers holds. -/
def commandsIn : List Offer → Nat
  | [] => 0
  | o :: rest => commandCount o + commandsIn rest

/-- A run has ended well after `commands` command words (R182): all accepted, idle, as many responses as commands. That
no fault and no refusal is recorded is said by there being a state at all. -/
def endedWell (commands : Nat) (s : State) : Prop :=
  s.offered = [] ∧ s.ph = .idle ∧ s.accepted = commands ∧ s.responses.length = commands

/-! ## Invariants -/

/-- Every accepted command is answered, but for the one in progress (R80, R120). -/
def answered (s : State) : Prop :=
  s.accepted = s.responses.length + (match s.ph with | .idle => 0 | .run => 1)

/-- While a command is in progress, `RI` has not passed `RT` (R26). -/
def roundsBounded (s : State) : Prop := s.ph = .run → s.ri.toNat ≤ s.rt.toNat

/-- No response reports an error (R156). -/
def noError (s : State) : Prop := ∀ r ∈ s.responses, r.err = .ok

/-- While NEXT or NEXTB is in progress, the generator is there, `RT` is its round count, and the scratch registers are what
`RI` rounds have made of it (R145). -/
def scratchFollowsGenerator (s : State) : Prop :=
  s.ph = .run → s.kind ≠ .gen →
    s.constructed = true ∧ s.rt = s.rounds ∧ s.sc = mix s.k s.c s.ri.toNat ∧ s.sk = keyadvN s.ri.toNat s.k

/-- On an instance that is not of the datapath's configuration nothing is ever constructed or in progress (R155, R160). -/
def unsupportedStaysEmpty (s : State) : Prop :=
  supported s.cfg = false → s.constructed = false ∧ s.ph = .idle

/-- The invariant of the machine at either level. -/
def inv (s : State) : Prop :=
  answered s ∧ roundsBounded s ∧ scratchFollowsGenerator s ∧ unsupportedStaysEmpty s

/-! ## What a host can tell apart -/

/-- Two states that a host cannot tell apart (R37): same instance configuration, same architectural state (`K`, `C`,
`ROUNDS` compared only when they hold a value), both idle, the same things offered and accepted and answered. -/
def sameToHost (s t : State) : Prop :=
  s.cfg = t.cfg ∧ s.generator? = t.generator? ∧ s.ph = .idle ∧ t.ph = .idle ∧ s.offered = t.offered ∧
    s.accepted = t.accepted ∧ s.responses = t.responses ∧ s.leafOutputs = t.leafOutputs

/-- Two outcomes a host cannot tell apart: next states it cannot tell apart, or the same fault or refusal. -/
def sameOutcome : Host.Outcome State Fault Refusal → Host.Outcome State Fault Refusal → Prop
  | .next s, .next t => sameToHost s t
  | .fault f, .fault g => f = g
  | .refused q, .refused r => q = r
  | .next _, .fault _ => False
  | .next _, .refused _ => False
  | .fault _, .next _ => False
  | .fault _, .refused _ => False
  | .refused _, .next _ => False
  | .refused _, .fault _ => False

/-! ## Inverses -/

/-- The inverse of `M0` modulo 2^32 (R93). -/
def IM0 : Word := 0x991A7CDB

/-- The inverse of `M1` modulo 2^32 (R93). -/
def IM1 : Word := 0x6D7CAE67

/-- The inverse of one round for a fixed key, as R93 writes it out. No hardware computes it. -/
def unround (d : Counter) (k : Key) : Counter where
  w0 := BitVec.ofNat 32 (d.w3.toNat * IM0.toNat)
  w1 := d.w0 ^^^ (mulhilo M1 (BitVec.ofNat 32 (d.w1.toNat * IM1.toNat))).1 ^^^ k.w0
  w2 := BitVec.ofNat 32 (d.w1.toNat * IM1.toNat)
  w3 := d.w2 ^^^ (mulhilo M0 (BitVec.ofNat 32 (d.w3.toNat * IM0.toNat))).1 ^^^ k.w1

end Sys2Proof.Safety
end

