-- ==== Sys2Proof/Certificates/Slice0/Obligations.lean ====
section
/-! DEFINITION. The statements for the provers, each from a numbered rule of spec/ or from the sections named. Where a
clause rests on the model's own choice or on an inference, the docstring says so and names the log entry or the spec's
sentence. The block has no memory (spec/20_memory.md R50), so no statement speaks of bytes of memory. -/

open Sys2Proof Sys2Proof.Machine Sys2Proof.Safety

/-! ## Reset, stepping, decoding -/

/-- What reset leaves (spec/10_state.md section 9, spec/70_reset_and_hazards.md section 1): not constructed, idle, no
value readable in `K`, `C`, `ROUNDS`, both channels empty; the same from any state, also while a command is in progress.
That `cfg` stays and that both lists are emptied is DEDUCED, log entry 11. -/
def Obligations.ResetLeavesUnconstructedIdleEmpty : Prop :=
  (State.reset.constructed = false ∧ State.reset.ph = .idle ∧ State.reset.generator? = none ∧
    State.reset.responses = [] ∧ State.reset.offered = [] ∧ State.reset.cfg = Config.hardware) ∧
  ∀ s : State, s.applyReset.constructed = false ∧ s.applyReset.ph = .idle ∧ s.applyReset.generator? = none ∧
    s.applyReset.responses = [] ∧ s.applyReset.offered = [] ∧ s.applyReset.cfg = s.cfg

/-- An idle block takes the first thing offered: `step` is `exec` of the decoded instruction in the state where it is no
longer offered and a command counts as accepted; an invalid word is the fault; with nothing offered nothing changes; a
command in progress is carried on by the controller (spec/44_round_controller.md section 1; log entries 4 and 9). The
model's choices in it: leaf-port values are offered as commands are and take their turn with them (log entries 5 and 18),
and an invalid word faults on every configuration (log entry 17). -/
def Obligations.StepRunsTheDecodedInstruction : Prop :=
  ∀ s : State,
    (∀ o rest i, s.ph = .idle → s.offered = o :: rest → decode o = .ok i →
      step s = exec i { s with offered := rest, accepted := s.accepted + commandCount o }) ∧
    (∀ o rest why, s.ph = .idle → s.offered = o :: rest → decode o = .error why →
      step s = .fault (.illegalCommand (s.accepted + commandCount o) why)) ∧
    (s.ph = .idle → s.offered = [] → step s = .next s) ∧
    (s.ph = .run → step s = runStep s)

/-- The instruction of a table row, once offered first, is what the very next step carries out (log entries 3, 14). -/
def Obligations.OfferedTableWordRunsInTheNextStep : Prop :=
  ∀ (s : State) (nbits w : Nat) (i : Instr), decodeTableWord nbits w = some i →
    step (s.withFetchWord nbits w) =
      exec i { s with ph := .idle, accepted := s.accepted + commandCount (offerOfTableWord nbits w) }

/-- The command words of spec/95_test_vectors.md section 6.1 (E2, E5 to E9, E11, E14), written out there, decode as
there. -/
def Obligations.SpecCommandWordsDecode : Prop :=
  decodeCommand 0x0370734413198a2e85a308d3243f6a88299f31d0a40938220a01 =
      .ok (.construct ⟨0xa4093822, 0x299f31d0⟩ ⟨0x243f6a88, 0x85a308d3, 0x13198a2e, 0x03707344⟩ 10) ∧
  decodeCommand 0x0000000000000000000000000000000000000000000000000002 = .ok .next ∧
  decodeCommand 0x0000000000000000000000000000000000000000000000000003 = .ok .nextb ∧
  decodeCommand 0x0000000000000000000000000000000000000000000000000004 = .ok .peek ∧
  decodeCommand 0x0370734413198a2e85a308d3243f6a88299f31d0a40938220a05 =
      .ok (.gen ⟨0xa4093822, 0x299f31d0⟩ ⟨0x243f6a88, 0x85a308d3, 0x13198a2e, 0x03707344⟩ 10) ∧
  decodeCommand 0xffffffffffffffffffffffffffffffffffffffffffffffffff02 = .ok .next ∧
  decodeCommand 0x0000000000000000000000000000000000000000000000000000 = .error (.unassignedOp 0) ∧
  decodeCommand 0x000000000000000000000000000000000000000000000000000a = .error .reservedNotZero

/-- R86 with R73, R74, R75: a command word is invalid exactly if `rsv` is not zero or `op` is 0, 6 or 7; otherwise it is
the command of its `op`, with operands read at their bit positions. -/
def Obligations.DecodeReadsEachFieldAtItsPosition : Prop :=
  ∀ cw : BitVec 208,
    ((∃ why, decodeCommand cw = .error why) ↔
      (cw.extractLsb' 3 5 ≠ 0 ∨ cw.extractLsb' 0 3 = 0 ∨ cw.extractLsb' 0 3 = 6 ∨ cw.extractLsb' 0 3 = 7)) ∧
    (cw.extractLsb' 3 5 = 0 →
      (cw.extractLsb' 0 3 = 1 → decodeCommand cw = .ok (.construct
        ⟨cw.extractLsb' 16 32, cw.extractLsb' 48 32⟩
        ⟨cw.extractLsb' 80 32, cw.extractLsb' 112 32, cw.extractLsb' 144 32, cw.extractLsb' 176 32⟩
        (cw.extractLsb' 8 8))) ∧
      (cw.extractLsb' 0 3 = 2 → decodeCommand cw = .ok .next) ∧
      (cw.extractLsb' 0 3 = 3 → decodeCommand cw = .ok .nextb) ∧
      (cw.extractLsb' 0 3 = 4 → decodeCommand cw = .ok .peek) ∧
      (cw.extractLsb' 0 3 = 5 → decodeCommand cw = .ok (.gen
        ⟨cw.extractLsb' 16 32, cw.extractLsb' 48 32⟩
        ⟨cw.extractLsb' 80 32, cw.extractLsb' 112 32, cw.extractLsb' 144 32, cw.extractLsb' 176 32⟩
        (cw.extractLsb' 8 8))))

/-- R77: the operand fields of NEXT, NEXTB and PEEK are ignored, and the canonical encoding has them zero. -/
def Obligations.OperandFieldsOfBareCommandsAreIgnored : Prop :=
  (∀ cw : BitVec 208,
    (cw.extractLsb' 0 8 = 0x02 → decodeCommand cw = .ok .next) ∧
    (cw.extractLsb' 0 8 = 0x03 → decodeCommand cw = .ok .nextb) ∧
    (cw.extractLsb' 0 8 = 0x04 → decodeCommand cw = .ok .peek)) ∧
  encode .next = .command 0x02 ∧ encode .nextb = .command 0x03 ∧ encode .peek = .command 0x04

/-- What the host may send is what decodes (spec/30_encoding.md sections 3 and 4; spec/70_reset_and_hazards.md
section 4). -/
def Obligations.WellFormedOffersAreThoseThatDecode : Prop :=
  ∀ o : Offer, o.wellFormed = true ↔ ∃ i, decode o = .ok i

/-- Decoding the encoding of a well-formed instruction gives it back, for every instruction and every operand. ROUND's
port order is DESIGN CHOICE, log entry 5. -/
def Obligations.DecodeOfEncodeIsTheInstruction : Prop :=
  ∀ i : Instr, i.wellFormed = true → decode (encode i) = .ok i

/-- Where each word has one meaning, encoding gives the word back: for every offer that decodes to anything but NEXT,
NEXTB and PEEK; for these three the low eight bits come back. -/
def Obligations.EncodeOfDecodeIsTheWord : Prop :=
  ∀ (o : Offer) (i : Instr), decode o = .ok i →
    (i ≠ .next → i ≠ .nextb → i ≠ .peek → encode i = o) ∧
    (i = .next ∨ i = .nextb ∨ i = .peek →
      ∃ cw cw', o = .command cw ∧ encode i = .command cw' ∧ cw.extractLsb' 0 8 = cw'.extractLsb' 0 8)

/-! ## The leaf functions -/

/-- R90: the four output words of ROUND, from the exact products `p0 = M0 * c[0]` and `p1 = M1 * c[2]`. -/
def Obligations.RoundComputesTheFourWords : Prop :=
  ∀ (c : Counter) (k : Key),
    (roundFn c k).w0 = BitVec.ofNat 32 (0xCD9E8D57 * c.w2.toNat / 2 ^ 32) ^^^ c.w1 ^^^ k.w0 ∧
    (roundFn c k).w1 = BitVec.ofNat 32 (0xCD9E8D57 * c.w2.toNat % 2 ^ 32) ∧
    (roundFn c k).w2 = BitVec.ofNat 32 (0xD2511F53 * c.w0.toNat / 2 ^ 32) ^^^ c.w3 ^^^ k.w1 ∧
    (roundFn c k).w3 = BitVec.ofNat 32 (0xD2511F53 * c.w0.toNat % 2 ^ 32)

/-- `mulhilo` splits the exact product and `add32` drops the carry (spec/00_scope.md section 5; that the high half is at
most 2^32 - 2 is marked derived there). -/
def Obligations.ProductIsExactAndSumWraps : Prop :=
  ∀ m a : Word,
    2 ^ 32 * (mulhilo m a).1.toNat + (mulhilo m a).2.toNat = m.toNat * a.toNat ∧
    (mulhilo m a).1.toNat ≤ 2 ^ 32 - 2 ∧
    (add32 m a).toNat = (m.toNat + a.toNat) % 2 ^ 32

/-- For a fixed key the round is a bijection, with the inverse of spec/40_round_function.md section 3 (marked derived
there). -/
def Obligations.RoundIsInvertible : Prop :=
  IM0.toNat * M0.toNat % 2 ^ 32 = 1 ∧ IM1.toNat * M1.toNat % 2 ^ 32 = 1 ∧
  ∀ k : Key, Function.Bijective (fun c : Counter => roundFn c k) ∧
    (∀ c, unround (roundFn c k) k = c) ∧ (∀ d, roundFn (unround d k) k = d)

/-- ROUND is linear in the key over xor (spec/40_round_function.md section 3, marked derived there). -/
def Obligations.RoundIsLinearInTheKey : Prop :=
  ∀ (c : Counter) (k k' : Key),
    (roundFn c k).w0 ^^^ (roundFn c k').w0 = k.w0 ^^^ k'.w0 ∧ (roundFn c k).w1 ^^^ (roundFn c k').w1 = 0 ∧
    (roundFn c k).w2 ^^^ (roundFn c k').w2 = k.w1 ^^^ k'.w1 ∧ (roundFn c k).w3 ^^^ (roundFn c k').w3 = 0

/-- R100: each key word plus its constant, modulo 2^32, with no carry between the words. -/
def Obligations.KeyScheduleAddsTheConstants : Prop :=
  ∀ k : Key, (keyadv k).w0.toNat = (0x9E3779B9 + k.w0.toNat) % 2 ^ 32 ∧
    (keyadv k).w1.toNat = (0xBB67AE85 + k.w1.toNat) % 2 ^ 32

/-- `j` applications add `j` times the constants, no key word repeats within 2^32 of them, and the key of round `r + 1`
is `KEYADV^r` of the starting key (spec/41_key_schedule.md section 3, marked derived there). -/
def Obligations.KeyScheduleIteratesWithoutRepeating : Prop :=
  (∀ (j : Nat) (k : Key), (keyadvN j k).w0.toNat = (0x9E3779B9 * j + k.w0.toNat) % 2 ^ 32 ∧
    (keyadvN j k).w1.toNat = (0xBB67AE85 * j + k.w1.toNat) % 2 ^ 32) ∧
  (∀ (i j : Nat) (k : Key), i < 2 ^ 32 → j < 2 ^ 32 → i ≠ j →
    (keyadvN i k).w0 ≠ (keyadvN j k).w0 ∧ (keyadvN i k).w1 ≠ (keyadvN j k).w1) ∧
  (∀ (k : Key) (c : Counter) (r : Nat), mix k c (r + 1) = roundFn (mix k c r) (keyadvN r k))

/-- The recursion of `mix` is the loop that in each iteration rounds with the key not yet advanced and then advances it
(spec/42_generator_commands.md section 1); that no round leaves the counter and that one round is ROUND is marked derived
there. -/
def Obligations.MixIsTheLoop : Prop :=
  ∀ (k : Key) (c : Counter),
    mix k c 0 = c ∧ (∀ r, mix k c (r + 1) = mix (keyadv k) (roundFn c k) r) ∧ mix k c 1 = roundFn c k ∧
    ∀ r, mix k c r = ((fun p : Key × Counter => (keyadv p.1, roundFn p.2 p.1))^[r] (k, c)).2

/-- For a fixed key and round count the mix is a bijection of the counter, so the outputs of one generator between two
wraps of its counter are all different (spec/42_generator_commands.md section 4, marked derived there). -/
def Obligations.MixIsABijectionOfTheCounter : Prop :=
  ∀ (k : Key) (r : Nat), Function.Bijective (fun c : Counter => mix k c r) ∧
    ∀ (c : Counter) (i j : Nat), i < 2 ^ 128 → j < 2 ^ 128 → i ≠ j →
      mix k (ctrincN i c) r ≠ mix k (ctrincN j c) r

/-- R130 in its second form: the least word that is not all ones goes up by one, the words below it become zero, the
words above it stay; all ones become all zero. -/
def Obligations.CounterIncrementRipplesToTheFirstWordThatDoesNotWrap : Prop :=
  ∀ a b c d : Word,
    (a ≠ 0xFFFFFFFF → ctrinc ⟨a, b, c, d⟩ = ⟨a + 1, b, c, d⟩) ∧
    (a = 0xFFFFFFFF → b ≠ 0xFFFFFFFF → ctrinc ⟨a, b, c, d⟩ = ⟨0, b + 1, c, d⟩) ∧
    (a = 0xFFFFFFFF → b = 0xFFFFFFFF → c ≠ 0xFFFFFFFF → ctrinc ⟨a, b, c, d⟩ = ⟨0, 0, c + 1, d⟩) ∧
    (a = 0xFFFFFFFF → b = 0xFFFFFFFF → c = 0xFFFFFFFF → d ≠ 0xFFFFFFFF →
      ctrinc ⟨a, b, c, d⟩ = ⟨0, 0, 0, d + 1⟩) ∧
    (a = 0xFFFFFFFF → b = 0xFFFFFFFF → c = 0xFFFFFFFF → d = 0xFFFFFFFF →
      ctrinc ⟨a, b, c, d⟩ = ⟨0, 0, 0, 0⟩)

/-- The increment is the integer increment modulo 2^(32*N), for any number of words and for the four of this hardware, and
on a bus (spec/43_counter_increment.md section 3; the bus form is marked derived there). -/
def Obligations.CounterIncrementAddsOneToTheValue : Prop :=
  (∀ ws : List Word, wordsVal (incWords true ws) = (wordsVal ws + 1) % 2 ^ (32 * ws.length)) ∧
  (∀ c : Counter, counterWords (ctrinc c) = incWords true (counterWords c)) ∧
  (∀ c : Counter, val (ctrinc c) = (val c + 1) % 2 ^ 128) ∧
  (∀ c : Counter, pack (ctrinc c) = pack c + 1)

/-- CTRINC is a bijection of the counter values, and 2^128 applications return the start (spec/43_counter_increment.md
section 3, marked derived there). -/
def Obligations.CounterIncrementIsACycleOfAllCounters : Prop :=
  Function.Bijective ctrinc ∧
  (∀ (n : Nat) (c : Counter), val (ctrincN n c) = (val c + n) % 2 ^ 128) ∧
  (∀ (n : Nat) (c : Counter), n = 2 ^ 128 → ctrincN n c = c)

/-- The packing is the integer value, and its bytes are the byte encoding of the words (spec/20_memory.md section 2; the
second is marked derived there). -/
def Obligations.PackedWordsAreTheValueAndTheBytes : Prop :=
  ∀ c : Counter, (pack c).toNat = val c ∧ (pack c).toNat = c.w0.toNat + 2 ^ 32 * c.w1.toNat + 2 ^ 64 * c.w2.toNat +
      2 ^ 96 * c.w3.toNat ∧
    bytesOfData (pack c) = bytesOf (counterWords c) ∧ dataOfBytes (bytesOf (counterWords c)) = pack c

/-- R52 and R55: `word` and `bytes` are inverse to each other, and byte encoding loses nothing, for the sixteen bytes of
an output as for any number of words. -/
def Obligations.ByteEncodingLosesNothing : Prop :=
  (∀ w : Word, bytes w = [w.extractLsb' 0 8, w.extractLsb' 8 8, w.extractLsb' 16 8, w.extractLsb' 24 8] ∧
    wordsOf (bytes w) = [w]) ∧
  (∀ b0 b1 b2 b3 : Byte, bytes (word b0 b1 b2 b3) = [b0, b1, b2, b3] ∧
    (word b0 b1 b2 b3).toNat = b0.toNat + 2 ^ 8 * b1.toNat + 2 ^ 16 * b2.toNat + 2 ^ 24 * b3.toNat) ∧
  (∀ ws : List Word, wordsOf (bytesOf ws) = ws) ∧
  (∀ s : State, supported s.cfg = true → s.constructed = true →
    ∃ t d, exec .nextb s = .next t ∧ t.responses = s.responses ++ [⟨.ok, d⟩] ∧
      wordsOf (bytesOfData d) = counterWords (mix s.k s.c s.rounds.toNat))

/-- The three leaf modules on their own complete on this configuration: the output port shows the function of the inputs
and nothing else changes; on any other configuration they are refused. That the output port's value is recorded in
`leafOutputs` is DESIGN CHOICE, log entry 5; the refusal, log entry 6 (spec/40_round_function.md section 2,
spec/41_key_schedule.md section 2, spec/43_counter_increment.md section 2). -/
def Obligations.LeafModulesShowTheirFunction : Prop :=
  ∀ s : State,
    (supported s.cfg = true →
      (∀ c k, exec (.round c k) s =
        .next { s with leafOutputs := s.leafOutputs ++ [.roundOut (pack (roundFn c k))] }) ∧
      (∀ k, exec (.keyadv k) s = .next { s with leafOutputs := s.leafOutputs ++ [.keyOut (packKey (keyadv k))] }) ∧
      (∀ c, exec (.ctrinc c) s = .next { s with leafOutputs := s.leafOutputs ++ [.counterOut (pack (ctrinc c))] })) ∧
    (supported s.cfg = false →
      (∀ c k, exec (.round c k) s = .refused .unsupportedConfiguration) ∧
      (∀ k, exec (.keyadv k) s = .refused .unsupportedConfiguration) ∧
      (∀ c, exec (.ctrinc c) s = .refused .unsupportedConfiguration))

/-! ## The commands -/

/-- R111 with R153, R154: CONSTRUCT on every configuration: WIDTH before LENGTH, each answering its cause and writing
nothing; then the refusal; and on this configuration `K`, `C`, `ROUNDS` and `CONSTRUCTED` are written and the answer is
ok, whatever the state was. -/
def Obligations.ConstructChecksThenStores : Prop :=
  ∀ (s : State) (k : Key) (c : Counter) (r : BitVec 8),
    (s.cfg.w ≠ 32 → exec (.construct k c r) s = .next { s with responses := s.responses ++ [⟨.width, 0⟩] }) ∧
    (s.cfg.w = 32 → 2 * s.cfg.kn ≠ s.cfg.n →
      exec (.construct k c r) s = .next { s with responses := s.responses ++ [⟨.length, 0⟩] }) ∧
    (s.cfg.w = 32 → 2 * s.cfg.kn = s.cfg.n → s.cfg.n ≠ 4 →
      exec (.construct k c r) s = .refused .unsupportedConfiguration) ∧
    (s.cfg.w = 32 → 2 * s.cfg.kn = s.cfg.n → s.cfg.n = 4 →
      exec (.construct k c r) s = .next { s with
        k := k, c := c, rounds := r, constructed := true, responses := s.responses ++ [⟨.ok, 0⟩] })

/-- R81: the codes of `err`; 11 is never produced; only CONSTRUCT answers anything but ok, and then with the cause the
configuration gives; on this hardware's configuration nothing does. -/
def Obligations.OnlyConstructReportsAnError : Prop :=
  (errCode .ok = 0b00 ∧ errCode .width = 0b01 ∧ errCode .length = 0b10 ∧ ∀ e, errCode e ≠ 0b11) ∧
  ∀ (i : Instr) (s t : State) (rs : List Response), exec i s = .next t → t.responses = s.responses ++ rs →
    ∀ r ∈ rs, r.err ≠ .ok →
      isConstruct i = true ∧ s.cfg ≠ Config.hardware ∧
        ((r.err = .width ∧ s.cfg.w ≠ 32) ∨ (r.err = .length ∧ s.cfg.w = 32 ∧ 2 * s.cfg.kn ≠ s.cfg.n))

/-- R112: NEXT answers the mix of the counter before the increment, advances `C`, and leaves `K`, `ROUNDS` and
`CONSTRUCTED` (and the channels but for the one response). -/
def Obligations.NextAnswersTheMixAndAdvances : Prop :=
  ∀ s : State, supported s.cfg = true → s.constructed = true →
    ∃ t, exec .next s = .next t ∧
      t.responses = s.responses ++ [⟨.ok, pack (mix s.k s.c s.rounds.toNat)⟩] ∧ t.c = ctrinc s.c ∧
      t.k = s.k ∧ t.rounds = s.rounds ∧ t.constructed = true ∧ t.cfg = s.cfg ∧ t.offered = s.offered ∧
      t.accepted = s.accepted ∧ t.leafOutputs = s.leafOutputs

/-- R113: NEXTB changes the state as NEXT does and answers the sixteen bytes, `B[4*i+j] = out[i][8*j+7 : 8*j]`, with
`data[8*j+7 : 8*j] = B[j]`. -/
def Obligations.NextbAnswersTheBytesAndAdvances : Prop :=
  ∀ s : State, supported s.cfg = true → s.constructed = true →
    ∃ t d, exec .nextb s = .next t ∧ t.responses = s.responses ++ [⟨.ok, d⟩] ∧
      (∀ i j : Nat, i < 4 → j < 4 →
        d.extractLsb' (8 * (4 * i + j)) 8 =
          ((counterWords (mix s.k s.c s.rounds.toNat)).getD i 0).extractLsb' (8 * j) 8) ∧
      t.c = ctrinc s.c ∧ t.k = s.k ∧ t.rounds = s.rounds ∧ t.constructed = true ∧ t.cfg = s.cfg ∧
      t.offered = s.offered ∧ t.accepted = s.accepted ∧ t.leafOutputs = s.leafOutputs

/-- R114: PEEK answers the stored counter and changes nothing else. -/
def Obligations.PeekAnswersTheCounter : Prop :=
  ∀ s : State, supported s.cfg = true → s.constructed = true →
    exec .peek s = .next { s with responses := s.responses ++ [⟨.ok, pack s.c⟩] }

/-- R115: GEN answers the mix of its operands, constructed or not, and leaves `K`, `C`, `ROUNDS`, `CONSTRUCTED` (and the
channels but for the one response); on an ill-configured instance it is refused. -/
def Obligations.GenAnswersTheMixOfItsOperands : Prop :=
  ∀ (s : State) (k : Key) (c : Counter) (r : BitVec 8),
    (supported s.cfg = true → ∃ t, exec (.gen k c r) s = .next t ∧
      t.responses = s.responses ++ [⟨.ok, pack (mix k c r.toNat)⟩] ∧ t.k = s.k ∧ t.c = s.c ∧ t.rounds = s.rounds ∧
      t.constructed = s.constructed ∧ t.cfg = s.cfg ∧ t.offered = s.offered ∧ t.accepted = s.accepted ∧
      t.leafOutputs = s.leafOutputs) ∧
    (s.cfg.w ≠ 32 ∨ 2 * s.cfg.kn ≠ s.cfg.n → exec (.gen k c r) s = .refused .unsupportedConfiguration)

/-- One round through GEN is ROUND, and no round is the counter (spec/40_round_function.md section 3 and
spec/42_generator_commands.md section 1, both marked derived there). -/
def Obligations.GenOfOneRoundIsRound : Prop :=
  ∀ (s : State) (k : Key) (c : Counter), supported s.cfg = true →
    (∃ t, exec (.gen k c 1) s = .next t ∧ t.responses = s.responses ++ [⟨.ok, pack (roundFn c k)⟩]) ∧
    (∃ t, exec (.gen k c 0) s = .next t ∧ t.responses = s.responses ++ [⟨.ok, pack c⟩])

/-- R121: NEXT, NEXTB and PEEK fault UseBeforeConstruct while `CONSTRUCTED = 0` (on every configuration but the valid
ones without a datapath, where every command is refused). -/
def Obligations.DrawsAndPeekFaultBeforeConstruct : Prop :=
  ∀ s : State, s.constructed = false → (s.cfg.w ≠ 32 ∨ 2 * s.cfg.kn ≠ s.cfg.n ∨ s.cfg.n = 4) →
    (∃ n, exec .next s = .fault (.useBeforeConstruct n)) ∧ (∃ n, exec .nextb s = .fault (.useBeforeConstruct n)) ∧
    (∃ n, exec .peek s = .fault (.useBeforeConstruct n))

/-- A fault names the command that caused it by its index in the command sequence, the first being 1, and those are all
the faults an idle block can raise (spec/60_exceptions.md section 4; counting from 1 is DEDUCED, log entry 9). -/
def Obligations.AFaultNamesItsCommand : Prop :=
  ∀ (s : State) (f : Fault), s.ph = .idle → step s = .fault f →
    ∃ cw rest, s.offered = .command cw :: rest ∧
      ((∃ why, decodeCommand cw = .error why ∧ f = .illegalCommand (s.accepted + 1) why) ∨
       (∃ i, decodeCommand cw = .ok i ∧ needsGenerator i = true ∧ s.constructed = false ∧
         f = .useBeforeConstruct (s.accepted + 1)))

/-- R160: every command on a valid configuration with `N` other than 4, and GEN on an invalid one, is refused; that is the
one refusal of `exec` and of either machine's step, and on this hardware's configuration no instruction is refused; a
refusal stays for the whole run of either machine, whatever the host offers later. (With nothing offered later that last
clause would hold of the runs of any step.) -/
def Obligations.UnsupportedConfigurationsAreRefused : Prop :=
  (∀ (s : State) (i : Instr), isCommand i = true → s.cfg.w = 32 → 2 * s.cfg.kn = s.cfg.n → s.cfg.n ≠ 4 →
    exec i s = .refused .unsupportedConfiguration) ∧
  (∀ (s : State) (k : Key) (c : Counter) (r : BitVec 8), s.cfg.w ≠ 32 ∨ 2 * s.cfg.kn ≠ s.cfg.n →
    exec (.gen k c r) s = .refused .unsupportedConfiguration) ∧
  (∀ (s : State) (i : Instr) (q : Refusal), exec i s = .refused q →
    q = .unsupportedConfiguration ∧ s.cfg ≠ Config.hardware) ∧
  (∀ (s : State) (q : Refusal), step s = .refused q ∨ controllerStep s = .refused q →
    q = .unsupportedConfiguration ∧ s.cfg ≠ Config.hardware) ∧
  (∀ (s : State) (later : List Offer) (n m : Nat) (q : Refusal), n ≤ m →
    (runSteps n s = .refused q → runSteps m { s with offered := s.offered ++ later } = .refused q) ∧
    (runController n s = .refused q → runController m { s with offered := s.offered ++ later } = .refused q))

/-- R159: once a run of either machine has faulted, no command offered later clears the fault, however many steps
follow, and none comes to a state: there is no response of the faulting command or of a later one, and no run that has
ended well. That the same fault comes although more is offered behind is a statement of this machine, which takes its
offers in order and looks at none but the first. -/
def Obligations.AFaultIsForGood : Prop :=
  ∀ (s : State) (later : List Offer) (n m : Nat) (f : Fault), n ≤ m →
    (runSteps n s = .fault f →
      runSteps m { s with offered := s.offered ++ later } = .fault f ∧
      ∀ t, runSteps m { s with offered := s.offered ++ later } ≠ .next t) ∧
    (runController n s = .fault f →
      runController m { s with offered := s.offered ++ later } = .fault f ∧
      ∀ t, runController m { s with offered := s.offered ++ later } ≠ .next t)

/-- R116: NEXT gives the data GEN gives for the stored key, counter and round count, and then increments; and GEN and the
first NEXT of a freshly constructed generator agree. -/
def Obligations.NextAgreesWithGen : Prop :=
  (∀ s : State, supported s.cfg = true → s.constructed = true →
    ∃ t u d, exec .next s = .next t ∧ exec (.gen s.k s.c s.rounds) s = .next u ∧
      t.responses = s.responses ++ [⟨.ok, d⟩] ∧ u.responses = s.responses ++ [⟨.ok, d⟩] ∧ t.c = ctrinc s.c) ∧
  (∀ (s : State) (k : Key) (c : Counter) (r : BitVec 8), supported s.cfg = true →
    ∃ s1 t u d, exec (.construct k c r) s = .next s1 ∧ exec .next s1 = .next t ∧ exec (.gen k c r) s1 = .next u ∧
      t.responses = s1.responses ++ [⟨.ok, d⟩] ∧ u.responses = s1.responses ++ [⟨.ok, d⟩])

/-- The sequential stream: from an idle constructed state, `n` draws (NEXT or NEXTB in any order) answer the mixes of the
`n` counters from the stored one on, modulo 2^128, in order, and leave the counter `n` further (spec/42_generator_commands.md
section 4; the indexed form is marked derived there). -/
def Obligations.DrawsFollowTheCounterStream : Prop :=
  ∀ (draws : List Bool) (s : State), s.ph = .idle → supported s.cfg = true → s.constructed = true →
    s.offered = draws.map (fun b => if b then encode .next else encode .nextb) →
    ∃ t, runSteps draws.length s = .next t ∧
      t.responses = s.responses ++
        (List.range draws.length).map (fun i => ⟨.ok, pack (mix s.k (ctrincN i s.c) s.rounds.toNat)⟩) ∧
      (∀ i, val (ctrincN i s.c) = (val s.c + i) % 2 ^ 128) ∧
      val t.c = (val s.c + draws.length) % 2 ^ 128 ∧ t.k = s.k ∧ t.rounds = s.rounds ∧ t.constructed = true ∧
      t.ph = .idle ∧ t.offered = []

/-- R118: what an instruction answers, and the generator it leaves, is a function of the instruction and of `K`, `C`,
`ROUNDS`, `CONSTRUCTED` (on one configuration): no hidden register and no history enters. -/
def Obligations.ResponseDependsOnArchitecturalStateOnly : Prop :=
  ∀ (i : Instr) (s t s' : State), s.cfg = t.cfg → s.generator? = t.generator? → exec i s = .next s' →
    ∃ t' rs, exec i t = .next t' ∧ s'.responses = s.responses ++ rs ∧ t'.responses = t.responses ++ rs ∧
      s'.generator? = t'.generator?

/-- Two states a host cannot tell apart stay so under any number of steps, whatever their hidden registers hold, and
whatever `K`, `C`, `ROUNDS` hold before construction (spec/10_state.md section 7, marked derived there). So the values
the model gives registers at reset (log entry 2) are never seen. -/
def Obligations.HiddenStateIsNeverSeen : Prop :=
  ∀ (n : Nat) (s t : State), sameToHost s t → sameOutcome (runSteps n s) (runSteps n t)

/-- R119: no instruction other than CONSTRUCT changes `K`, whatever its form and the state. -/
def Obligations.KeyNeverAdvances : Prop :=
  ∀ (i : Instr) (s t : State), isConstruct i = false → exec i s = .next t → t.k = s.k

/-- R80 and R120: every command that answers a next state appends exactly one response, a leaf evaluation none; a response
word is 130 bits, `err` at 129:128 and `data` at 127:0; and a step adds as many responses as it takes commands, after
those already there. -/
def Obligations.OneResponsePerCommandInOrder : Prop :=
  (∀ (i : Instr) (s t : State), exec i s = .next t →
    (isCommand i = true → ∃ r, t.responses = s.responses ++ [r]) ∧ (isCommand i = false → t.responses = s.responses)) ∧
  (∀ r : Response, (responseWord r).extractLsb' 128 2 = errCode r.err ∧ (responseWord r).extractLsb' 0 128 = r.data) ∧
  (∀ s t : State, s.ph = .idle → step s = .next t →
    ∃ rs, t.responses = s.responses ++ rs ∧ t.accepted = s.accepted + rs.length)

/-- R122: CONSTRUCT on a constructed block behaves as CONSTRUCT after reset: it answers the same one response, and leaves
the same generator, its operands, and nothing of the old one. On every configuration it answers after reset what it
answers now, or stops in the same way. -/
def Obligations.ReconstructionForgetsTheOldGenerator : Prop :=
  (∀ (s : State) (k : Key) (c : Counter) (r : BitVec 8), supported s.cfg = true →
    ∃ t u, exec (.construct k c r) s = .next t ∧ exec (.construct k c r) s.applyReset = .next u ∧
      t.generator? = some ⟨k, c, r⟩ ∧ u.generator? = some ⟨k, c, r⟩ ∧
      t.responses = s.responses ++ [⟨.ok, 0⟩] ∧ u.responses = s.applyReset.responses ++ [⟨.ok, 0⟩]) ∧
  (∀ (s : State) (k : Key) (c : Counter) (r : BitVec 8),
    (∃ t u a, exec (.construct k c r) s = .next t ∧ exec (.construct k c r) s.applyReset = .next u ∧
      t.responses = s.responses ++ [a] ∧ u.responses = s.applyReset.responses ++ [a]) ∨
    (∃ q, exec (.construct k c r) s = .refused q ∧ exec (.construct k c r) s.applyReset = .refused q))

/-- R29: `CONSTRUCTED` is 0 after reset, becomes 1 exactly when a CONSTRUCT succeeds, and no step clears it (reset does);
while it is 0 the three registers hold no value; NEXT, NEXTB and PEEK need it, CONSTRUCT and GEN do not. -/
def Obligations.ConstructedIsSetByConstructAndClearedByResetOnly : Prop :=
  State.reset.constructed = false ∧ (∀ s : State, s.applyReset.constructed = false) ∧
  (∀ (i : Instr) (s t : State), exec i s = .next t →
    (t.constructed = true ↔ s.constructed = true ∨ (isConstruct i = true ∧ supported s.cfg = true))) ∧
  (∀ s t : State, step s = .next t → s.constructed = true → t.constructed = true) ∧
  (∀ s t : State, controllerStep s = .next t → s.constructed = true → t.constructed = true) ∧
  (∀ s : State, s.constructed = false → s.generator? = none) ∧
  (∀ (i : Instr) (s t : State), needsGenerator i = true → exec i s = .next t → s.constructed = true) ∧
  (∀ (s : State) (k : Key) (c : Counter) (r : BitVec 8), supported s.cfg = true →
    (∃ t, exec (.construct k c r) s = .next t) ∧ ∃ t, exec (.gen k c r) s = .next t)

/-- R22: CONSTRUCT writes all of `C` with its operand, NEXT and NEXTB read it whole into the scratch counter and then
increment it, PEEK reads it whole and writes nothing, GEN neither reads nor writes it, and there is no other write. -/
def Obligations.CounterIsWrittenByConstructAndDrawsOnly : Prop :=
  (∀ (k : Key) (c : Counter) (r : BitVec 8) (s t : State), supported s.cfg = true →
    exec (.construct k c r) s = .next t → t.c = c) ∧
  (∀ (i : Instr) (s t : State), exec i s = .next t → isDraw i = true → t.c = ctrinc s.c) ∧
  (∀ (i : Instr) (s t : State), exec i s = .next t → isDraw i = false → isConstruct i = false → t.c = s.c) ∧
  (∀ (i : Instr) (s t : State), accept i s = .next t → isDraw i = true → t.sc = s.c ∧ t.c = s.c) ∧
  (∀ s t : State, exec .peek s = .next t → t = { s with responses := s.responses ++ [⟨.ok, pack s.c⟩] }) ∧
  (∀ (k : Key) (c x : Counter) (r : BitVec 8) (s t : State), exec (.gen k c r) s = .next t →
    exec (.gen k c r) { s with c := x } = .next { t with c := x })

/-- The frame of every instruction that answers a next state: the registers it does not write, the configuration, what is
offered and what is accepted stay; NEXT, NEXTB and GEN alone write the hidden registers, `KIND` among them, with what the
controller leaves in them (DEDUCED, log entry 4). -/
def Obligations.EveryInstructionKeepsItsFrame : Prop :=
  ∀ (i : Instr) (s t : State), exec i s = .next t →
    t.cfg = s.cfg ∧ t.offered = s.offered ∧ t.accepted = s.accepted ∧
    (isCommand i = true → t.leafOutputs = s.leafOutputs) ∧
    (isConstruct i = false → t.k = s.k ∧ t.rounds = s.rounds ∧ t.constructed = s.constructed) ∧
    (isDraw i = false → isConstruct i = false → t.c = s.c) ∧
    ((∃ k c r, i = .construct k c r) ∨ i = .peek ∨ isCommand i = false →
      t.sk = s.sk ∧ t.sc = s.sc ∧ t.ri = s.ri ∧ t.rt = s.rt ∧ t.kind = s.kind ∧ t.ph = s.ph) ∧
    (isDraw i = true → t.ri = s.rounds ∧ t.rt = s.rounds ∧ t.sc = mix s.k s.c s.rounds.toNat ∧
      t.sk = keyadvN s.rounds.toNat s.k ∧ t.ph = .idle) ∧
    (i = .next → t.kind = .next) ∧ (i = .nextb → t.kind = .nextb) ∧
    (∀ k c r, i = .gen k c r → t.ri = r ∧ t.rt = r ∧ t.sc = mix k c r.toNat ∧ t.sk = keyadvN r.toNat k ∧
      t.kind = .gen ∧ t.ph = .idle)

/-- R133: the wrap at the top is silent and the generator goes on: NEXT on the all-ones counter answers its mix without an
error and leaves all zero, and the next NEXT mixes the all-zero counter. -/
def Obligations.CounterWrapsSilentlyAndGoesOn : Prop :=
  ∀ s : State, supported s.cfg = true → s.constructed = true →
    s.c = ⟨0xFFFFFFFF, 0xFFFFFFFF, 0xFFFFFFFF, 0xFFFFFFFF⟩ →
    ∃ t u, exec .next s = .next t ∧ t.c = ⟨0, 0, 0, 0⟩ ∧
      t.responses = s.responses ++ [⟨.ok, pack (mix s.k s.c s.rounds.toNat)⟩] ∧
      exec .next t = .next u ∧ u.responses = t.responses ++ [⟨.ok, pack (mix s.k ⟨0, 0, 0, 0⟩ s.rounds.toNat)⟩]

/-- Two draws in a row, NEXT or NEXTB in any order, answer the outputs for `C` and for the counter one further, which
differ; PEEK, GEN and CONSTRUCT are idempotent (spec/20_memory.md section 4; that the two outputs differ is marked derived
there). -/
def Obligations.DrawsDifferAndTheOthersAreIdempotent : Prop :=
  ∀ s : State, supported s.cfg = true →
    (∀ i j : Instr, isDraw i = true → isDraw j = true → s.constructed = true →
      ∃ t u d e, exec i s = .next t ∧ exec j t = .next u ∧
        t.responses = s.responses ++ [⟨.ok, d⟩] ∧ u.responses = t.responses ++ [⟨.ok, e⟩] ∧
        d = pack (mix s.k s.c s.rounds.toNat) ∧ e = pack (mix s.k (ctrinc s.c) s.rounds.toNat) ∧ d ≠ e) ∧
    (s.constructed = true → ∃ t u d, exec .peek s = .next t ∧ exec .peek t = .next u ∧
      t.responses = s.responses ++ [⟨.ok, d⟩] ∧ u.responses = t.responses ++ [⟨.ok, d⟩]) ∧
    (∀ k c r, ∃ t u d, exec (.gen k c r) s = .next t ∧ exec (.gen k c r) t = .next u ∧
      t.responses = s.responses ++ [⟨.ok, d⟩] ∧ u.responses = t.responses ++ [⟨.ok, d⟩] ∧
      u.generator? = s.generator?) ∧
    (∀ k c r, ∃ t u, exec (.construct k c r) s = .next t ∧ exec (.construct k c r) t = .next u ∧
      u.generator? = t.generator?)

/-! ## The controller -/

/-- Which steps are enabled, at most one of them in any state, and the controller takes the one that is
(spec/44_round_controller.md section 1). The model's choices in it: leaf-port values enable ACCEPT as a command does (log
entries 5 and 18), an invalid word faults on every configuration (log entry 17), and the fault's index is DEDUCED (log
entry 9). -/
def Obligations.AtMostOneControllerStepIsEnabled : Prop :=
  ∀ s : State,
    (acceptEnabled s = true ↔ s.ph = .idle ∧ s.offered ≠ []) ∧
    (roundStepEnabled s = true ↔ s.ph = .run ∧ s.ri.toNat < s.rt.toNat) ∧
    (finishEnabled s = true ↔ s.ph = .run ∧ s.ri = s.rt) ∧
    ¬ (acceptEnabled s = true ∧ roundStepEnabled s = true) ∧ ¬ (acceptEnabled s = true ∧ finishEnabled s = true) ∧
    ¬ (roundStepEnabled s = true ∧ finishEnabled s = true) ∧
    (acceptEnabled s = true → ∃ o rest, s.offered = o :: rest ∧
      controllerStep s = match decode o with
        | .ok i => accept i (s.take o rest)
        | .error why => .fault (.illegalCommand (s.accepted + commandCount o) why)) ∧
    (roundStepEnabled s = true → controllerStep s = .next s.roundStep) ∧
    (finishEnabled s = true → controllerStep s = .next s.finish)

/-- R141: what ACCEPT does with each command: CONSTRUCT is the whole of R111 on every configuration; on this one an invalid
word faults, CONSTRUCT and PEEK are carried out whole and the phase stays, NEXT and NEXTB fault unless constructed, else
copy `K`, `C`, `ROUNDS`, and GEN copies its operands. -/
def Obligations.AcceptLoadsTheScratchRegisters : Prop :=
  (∀ (s : State) (cw : BitVec 208) (rest : List Offer) (k : Key) (c : Counter) (r : BitVec 8), s.ph = .idle →
    s.offered = .command cw :: rest → decodeCommand cw = .ok (.construct k c r) →
    controllerStep s = exec (.construct k c r) { s with offered := rest, accepted := s.accepted + 1 }) ∧
  ∀ (s : State) (cw : BitVec 208) (rest : List Offer), s.ph = .idle → s.offered = .command cw :: rest →
    supported s.cfg = true →
    let s1 := { s with offered := rest, accepted := s.accepted + 1 }
    (∀ why, decodeCommand cw = .error why → ∃ n, controllerStep s = .fault (.illegalCommand n why)) ∧
    (∀ k c r, decodeCommand cw = .ok (.construct k c r) → controllerStep s =
      .next { s1 with k := k, c := c, rounds := r, constructed := true, responses := s.responses ++ [⟨.ok, 0⟩] }) ∧
    (decodeCommand cw = .ok .peek → s.constructed = false → ∃ n, controllerStep s = .fault (.useBeforeConstruct n)) ∧
    (decodeCommand cw = .ok .peek → s.constructed = true →
      controllerStep s = .next { s1 with responses := s.responses ++ [⟨.ok, pack s.c⟩] }) ∧
    (decodeCommand cw = .ok .next → s.constructed = false → ∃ n, controllerStep s = .fault (.useBeforeConstruct n)) ∧
    (decodeCommand cw = .ok .next → s.constructed = true → controllerStep s =
      .next { s1 with sk := s.k, sc := s.c, rt := s.rounds, ri := 0, kind := .next, ph := .run }) ∧
    (decodeCommand cw = .ok .nextb → s.constructed = false → ∃ n, controllerStep s = .fault (.useBeforeConstruct n)) ∧
    (decodeCommand cw = .ok .nextb → s.constructed = true → controllerStep s =
      .next { s1 with sk := s.k, sc := s.c, rt := s.rounds, ri := 0, kind := .nextb, ph := .run }) ∧
    (∀ k c r, decodeCommand cw = .ok (.gen k c r) → controllerStep s =
      .next { s1 with sk := k, sc := c, rt := r, ri := 0, kind := .gen, ph := .run })

/-- R142 and R143: ROUNDSTEP writes `SC`, `SK` and `RI` together, from the old ones; FINISH increments `C` for NEXT and
NEXTB, answers `SC`, and goes to IDLE; nothing else changes. -/
def Obligations.RoundStepAndFinishWriteTheirRegisters : Prop :=
  ∀ s : State, s.ph = .run →
    (s.ri.toNat < s.rt.toNat →
      controllerStep s = .next { s with sc := roundFn s.sc s.sk, sk := keyadv s.sk, ri := s.ri + 1 }) ∧
    (s.ri = s.rt → s.kind ≠ .gen → controllerStep s =
      .next { s with c := ctrinc s.c, responses := s.responses ++ [⟨.ok, pack s.sc⟩], ph := .idle }) ∧
    (s.ri = s.rt → s.kind = .gen → controllerStep s =
      .next { s with responses := s.responses ++ [⟨.ok, pack s.sc⟩], ph := .idle })

/-- While a command is in progress nothing is accepted: what is offered stays offered, in order, and offering more changes
nothing but the list; after FINISH, which is reached, the block is ready to accept what it held
(spec/44_round_controller.md section 1 says so of commands; that leaf-port values are held too is the model's choice, log
entry 18). -/
def Obligations.CommandsAreHeldWhileBusy : Prop :=
  (∀ (s t : State) (o : Offer), s.ph = .run → controllerStep s = .next t →
    t.offered = s.offered ∧ t.accepted = s.accepted ∧ controllerStep (s.offer o) = .next (t.offer o)) ∧
  (∀ s : State, s.ph = .run → s.ri.toNat ≤ s.rt.toNat → s.offered ≠ [] →
    ∃ t, runController (s.rt.toNat - s.ri.toNat + 1) s = .next t ∧ t.offered = s.offered ∧
      t.accepted = s.accepted ∧ acceptEnabled t = true)

/-- One NEXT, NEXTB or GEN is one ACCEPT, `RT` ROUNDSTEPs and one FINISH: after the `j`-th ROUNDSTEP `RI = j`,
`SC = mix(k0, c0, j)`, `SK = KEYADV^j(k0)` and the architectural registers are as before; and the `RT + 2` steps together
are the command-level step, to the last register (spec/44_round_controller.md section 2, marked derived there). -/
def Obligations.OneCommandIsRtPlusTwoControllerSteps : Prop :=
  ∀ (s : State) (o : Offer) (rest : List Offer) (i : Instr) (k0 : Key) (c0 : Counter) (rt : BitVec 8),
    s.ph = .idle → s.offered = o :: rest → decode o = .ok i → supported s.cfg = true →
    (isDraw i = true ∧ s.constructed = true ∧ k0 = s.k ∧ c0 = s.c ∧ rt = s.rounds ∨ i = .gen k0 c0 rt) →
    (∀ j : Nat, j ≤ rt.toNat → ∃ u, runController (j + 1) s = .next u ∧ u.ph = .run ∧ u.rt = rt ∧ u.ri.toNat = j ∧
      u.sc = mix k0 c0 j ∧ u.sk = keyadvN j k0 ∧ u.k = s.k ∧ u.c = s.c ∧ u.rounds = s.rounds ∧
      u.constructed = s.constructed ∧ u.responses = s.responses) ∧
    (∃ t, step s = .next t ∧ runController (rt.toNat + 2) s = .next t)

/-- The controller's machine refines the command level: from an idle state, what any number of command-level steps comes
to, next state, fault or refusal, some number of controller steps, not fewer, comes to as well
(spec/44_round_controller.md section 2, marked derived there). -/
def Obligations.ControllerRefinesTheCommandLevel : Prop :=
  ∀ (n : Nat) (s : State), s.ph = .idle → ∃ m, n ≤ m ∧ runController m s = runSteps n s

/-- R148: while a command is in progress and `RI` has not passed `RT`, exactly one step is enabled, it needs nothing from
the host, each ROUNDSTEP brings `RI` one nearer to `RT`, and after `RT - RI` further steps FINISH is reached, which
answers. -/
def Obligations.ABusyControllerReachesFinish : Prop :=
  ∀ s : State, s.ph = .run → s.ri.toNat ≤ s.rt.toNat →
    ((roundStepEnabled s = true ∧ finishEnabled s = false) ∨ (roundStepEnabled s = false ∧ finishEnabled s = true)) ∧
    (∀ t, roundStepEnabled s = true → controllerStep s = .next t →
      t.ph = .run ∧ t.rt = s.rt ∧ t.rt.toNat - t.ri.toNat + 1 = s.rt.toNat - s.ri.toNat) ∧
    (∃ u, runController (s.rt.toNat - s.ri.toNat) s = .next u ∧ finishEnabled u = true ∧
      u.responses = s.responses) ∧
    (∃ t r, runController (s.rt.toNat - s.ri.toNat + 1) s = .next t ∧ t.ph = .idle ∧
      t.responses = s.responses ++ [r] ∧ r.err = .ok)

/-! ## Invariants and whole runs -/

/-- The invariant of the machine holds after reset. -/
def Obligations.InvHoldsAtReset : Prop := inv State.reset

/-- The invariant is kept by every command-level step: every accepted command is answered but for the one in progress,
`RI` never passes `RT`, the scratch registers follow the generator, and an instance of another configuration stays
unconstructed and idle (spec/10_state.md sections 3 and 4, spec/42_generator_commands.md section 3,
spec/44_round_controller.md section 2, spec/60_exceptions.md section 3; DEDUCED, log entry 8). -/
def Obligations.EveryStepKeepsTheInvariant : Prop :=
  ∀ s t : State, inv s → step s = .next t → inv t

/-- The invariant is kept by every step of the controller's machine, and under it the controller is never without an
enabled step while busy. -/
def Obligations.EveryControllerStepKeepsTheInvariant : Prop :=
  ∀ s : State, inv s → (∀ t, controllerStep s = .next t → inv t) ∧ controllerStep s ≠ .fault .noStepEnabled ∧
    step s ≠ .fault .noStepEnabled

/-- On this hardware's configuration no command sequence produces an error: no step of either machine adds a response with
`err` other than 00, and the configuration stays (spec/60_exceptions.md section 1, marked derived there). -/
def Obligations.NoErrorEverOnThisHardware : Prop :=
  ∀ (n : Nat) (s t : State), s.cfg = Config.hardware → noError s →
    (runSteps n s = .next t ∨ runController n s = .next t) → t.cfg = Config.hardware ∧ noError t

/-- On an ill-configured instance nothing is ever constructed: every CONSTRUCT fails the same way each time, NEXT, NEXTB
and PEEK fault and GEN is refused, after any number of steps (spec/60_exceptions.md section 3; that it fails identically
is marked derived there). -/
def Obligations.AnIllConfiguredInstanceIsNeverConstructed : Prop :=
  ∀ (n : Nat) (s t : State), s.cfg.w ≠ 32 ∨ 2 * s.cfg.kn ≠ s.cfg.n → s.constructed = false → s.ph = .idle →
    runSteps n s = .next t →
    t.constructed = false ∧ t.ph = .idle ∧ t.cfg = s.cfg ∧
    (∀ k c r, ∃ e, e ≠ Err.ok ∧ configError? s.cfg = some e ∧
      exec (.construct k c r) t = .next { t with responses := t.responses ++ [⟨e, 0⟩] }) ∧
    (∃ m, exec .next t = .fault (.useBeforeConstruct m)) ∧ (∃ m, exec .nextb t = .fault (.useBeforeConstruct m)) ∧
    (∃ m, exec .peek t = .fault (.useBeforeConstruct m)) ∧
    (∀ k c r, exec (.gen k c r) t = .refused .unsupportedConfiguration)

/-- A run whose host keeps its duties ends well: from an idle state of this hardware's configuration with every command
answered, any sequence of legal offers that draws and peeks only when constructed is carried out whole, without fault or
refusal, with one response per command (spec/70_reset_and_hazards.md sections 4 and 5; DEDUCED). -/
def Obligations.ARunWithDutiesKeptEndsWell : Prop :=
  ∀ (os : List Offer) (s : State), s.ph = .idle → s.cfg = Config.hardware → s.accepted = s.responses.length →
    s.offered = os → dutiesKept s.constructed os = true →
    ∃ t, runSteps os.length s = .next t ∧ endedWell (s.accepted + commandsIn os) t

/-! ## The text form -/

/-- Every command has a line, reading it gives the command back, with its expected response if one is written after it,
and it stands for exactly one command word, the canonical one (spec/30_encoding.md section 7; spacing and letter case are
DESIGN CHOICE, log entry 13). -/
def Obligations.EveryCommandLineReadsBack : Prop :=
  ∀ i : Instr, isCommand i = true →
    ∃ l, instrText i = some l ∧ readLine l = some ⟨some i, none⟩ ∧ assemble l = some (encode i) ∧
      ∀ e : Expect, (∀ bs, e = .bytes bs → bs.length = 16) →
        readLine (l ++ ' ' :: textArrow ++ ' ' :: expectText e) = some ⟨some i, some e⟩
end

