-- ==== Sys2Proof/Laws/State.lean ====
section
/-! SUPPORT. One lemma per field per update of the state, true by rfl and tagged simp, so that no later proof unfolds a
record update. -/

namespace Sys2Proof.Machine

variable (s : State)

/-! `State.respond` -/

@[simp] theorem State.respond_cfg (err : Err) (data : BitVec 128) : (s.respond err data).cfg = s.cfg := rfl
@[simp] theorem State.respond_k (err : Err) (data : BitVec 128) : (s.respond err data).k = s.k := rfl
@[simp] theorem State.respond_c (err : Err) (data : BitVec 128) : (s.respond err data).c = s.c := rfl
@[simp] theorem State.respond_rounds (err : Err) (data : BitVec 128) : (s.respond err data).rounds = s.rounds := rfl
@[simp] theorem State.respond_constructed (err : Err) (data : BitVec 128) :
    (s.respond err data).constructed = s.constructed := rfl
@[simp] theorem State.respond_sk (err : Err) (data : BitVec 128) : (s.respond err data).sk = s.sk := rfl
@[simp] theorem State.respond_sc (err : Err) (data : BitVec 128) : (s.respond err data).sc = s.sc := rfl
@[simp] theorem State.respond_ri (err : Err) (data : BitVec 128) : (s.respond err data).ri = s.ri := rfl
@[simp] theorem State.respond_rt (err : Err) (data : BitVec 128) : (s.respond err data).rt = s.rt := rfl
@[simp] theorem State.respond_kind (err : Err) (data : BitVec 128) : (s.respond err data).kind = s.kind := rfl
@[simp] theorem State.respond_ph (err : Err) (data : BitVec 128) : (s.respond err data).ph = s.ph := rfl
@[simp] theorem State.respond_offered (err : Err) (data : BitVec 128) :
    (s.respond err data).offered = s.offered := rfl
@[simp] theorem State.respond_accepted (err : Err) (data : BitVec 128) :
    (s.respond err data).accepted = s.accepted := rfl
@[simp] theorem State.respond_responses (err : Err) (data : BitVec 128) :
    (s.respond err data).responses = s.responses ++ [⟨err, data⟩] := rfl
@[simp] theorem State.respond_leafOutputs (err : Err) (data : BitVec 128) :
    (s.respond err data).leafOutputs = s.leafOutputs := rfl

/-! `State.raiseConfigurationError` -/

@[simp] theorem State.raiseConfigurationError_cfg (cause : Err) : (s.raiseConfigurationError cause).cfg = s.cfg := rfl
@[simp] theorem State.raiseConfigurationError_k (cause : Err) : (s.raiseConfigurationError cause).k = s.k := rfl
@[simp] theorem State.raiseConfigurationError_c (cause : Err) : (s.raiseConfigurationError cause).c = s.c := rfl
@[simp] theorem State.raiseConfigurationError_rounds (cause : Err) :
    (s.raiseConfigurationError cause).rounds = s.rounds := rfl
@[simp] theorem State.raiseConfigurationError_constructed (cause : Err) :
    (s.raiseConfigurationError cause).constructed = s.constructed := rfl
@[simp] theorem State.raiseConfigurationError_sk (cause : Err) : (s.raiseConfigurationError cause).sk = s.sk := rfl
@[simp] theorem State.raiseConfigurationError_sc (cause : Err) : (s.raiseConfigurationError cause).sc = s.sc := rfl
@[simp] theorem State.raiseConfigurationError_ri (cause : Err) : (s.raiseConfigurationError cause).ri = s.ri := rfl
@[simp] theorem State.raiseConfigurationError_rt (cause : Err) : (s.raiseConfigurationError cause).rt = s.rt := rfl
@[simp] theorem State.raiseConfigurationError_kind (cause : Err) :
    (s.raiseConfigurationError cause).kind = s.kind := rfl
@[simp] theorem State.raiseConfigurationError_ph (cause : Err) : (s.raiseConfigurationError cause).ph = s.ph := rfl
@[simp] theorem State.raiseConfigurationError_offered (cause : Err) :
    (s.raiseConfigurationError cause).offered = s.offered := rfl
@[simp] theorem State.raiseConfigurationError_accepted (cause : Err) :
    (s.raiseConfigurationError cause).accepted = s.accepted := rfl
@[simp] theorem State.raiseConfigurationError_responses (cause : Err) :
    (s.raiseConfigurationError cause).responses = s.responses ++ [⟨cause, 0⟩] := rfl
@[simp] theorem State.raiseConfigurationError_leafOutputs (cause : Err) :
    (s.raiseConfigurationError cause).leafOutputs = s.leafOutputs := rfl

/-! `State.storeGenerator` -/

@[simp] theorem State.storeGenerator_cfg (k : Key) (c : Counter) (r : BitVec 8) :
    (s.storeGenerator k c r).cfg = s.cfg := rfl
@[simp] theorem State.storeGenerator_k (k : Key) (c : Counter) (r : BitVec 8) : (s.storeGenerator k c r).k = k := rfl
@[simp] theorem State.storeGenerator_c (k : Key) (c : Counter) (r : BitVec 8) : (s.storeGenerator k c r).c = c := rfl
@[simp] theorem State.storeGenerator_rounds (k : Key) (c : Counter) (r : BitVec 8) :
    (s.storeGenerator k c r).rounds = r := rfl
@[simp] theorem State.storeGenerator_constructed (k : Key) (c : Counter) (r : BitVec 8) :
    (s.storeGenerator k c r).constructed = true := rfl
@[simp] theorem State.storeGenerator_sk (k : Key) (c : Counter) (r : BitVec 8) :
    (s.storeGenerator k c r).sk = s.sk := rfl
@[simp] theorem State.storeGenerator_sc (k : Key) (c : Counter) (r : BitVec 8) :
    (s.storeGenerator k c r).sc = s.sc := rfl
@[simp] theorem State.storeGenerator_ri (k : Key) (c : Counter) (r : BitVec 8) :
    (s.storeGenerator k c r).ri = s.ri := rfl
@[simp] theorem State.storeGenerator_rt (k : Key) (c : Counter) (r : BitVec 8) :
    (s.storeGenerator k c r).rt = s.rt := rfl
@[simp] theorem State.storeGenerator_kind (k : Key) (c : Counter) (r : BitVec 8) :
    (s.storeGenerator k c r).kind = s.kind := rfl
@[simp] theorem State.storeGenerator_ph (k : Key) (c : Counter) (r : BitVec 8) :
    (s.storeGenerator k c r).ph = s.ph := rfl
@[simp] theorem State.storeGenerator_offered (k : Key) (c : Counter) (r : BitVec 8) :
    (s.storeGenerator k c r).offered = s.offered := rfl
@[simp] theorem State.storeGenerator_accepted (k : Key) (c : Counter) (r : BitVec 8) :
    (s.storeGenerator k c r).accepted = s.accepted := rfl
@[simp] theorem State.storeGenerator_responses (k : Key) (c : Counter) (r : BitVec 8) :
    (s.storeGenerator k c r).responses = s.responses := rfl
@[simp] theorem State.storeGenerator_leafOutputs (k : Key) (c : Counter) (r : BitVec 8) :
    (s.storeGenerator k c r).leafOutputs = s.leafOutputs := rfl

/-! `State.advanceCounter` -/

@[simp] theorem State.advanceCounter_cfg : (s.advanceCounter).cfg = s.cfg := rfl
@[simp] theorem State.advanceCounter_k : (s.advanceCounter).k = s.k := rfl
@[simp] theorem State.advanceCounter_c : (s.advanceCounter).c = ctrinc s.c := rfl
@[simp] theorem State.advanceCounter_rounds : (s.advanceCounter).rounds = s.rounds := rfl
@[simp] theorem State.advanceCounter_constructed : (s.advanceCounter).constructed = s.constructed := rfl
@[simp] theorem State.advanceCounter_sk : (s.advanceCounter).sk = s.sk := rfl
@[simp] theorem State.advanceCounter_sc : (s.advanceCounter).sc = s.sc := rfl
@[simp] theorem State.advanceCounter_ri : (s.advanceCounter).ri = s.ri := rfl
@[simp] theorem State.advanceCounter_rt : (s.advanceCounter).rt = s.rt := rfl
@[simp] theorem State.advanceCounter_kind : (s.advanceCounter).kind = s.kind := rfl
@[simp] theorem State.advanceCounter_ph : (s.advanceCounter).ph = s.ph := rfl
@[simp] theorem State.advanceCounter_offered : (s.advanceCounter).offered = s.offered := rfl
@[simp] theorem State.advanceCounter_accepted : (s.advanceCounter).accepted = s.accepted := rfl
@[simp] theorem State.advanceCounter_responses : (s.advanceCounter).responses = s.responses := rfl
@[simp] theorem State.advanceCounter_leafOutputs : (s.advanceCounter).leafOutputs = s.leafOutputs := rfl

/-! `State.ranRounds` -/

@[simp] theorem State.ranRounds_cfg (kind : Kind) (k : Key) (c : Counter) (r : BitVec 8) :
    (s.ranRounds kind k c r).cfg = s.cfg := rfl
@[simp] theorem State.ranRounds_k (kind : Kind) (k : Key) (c : Counter) (r : BitVec 8) :
    (s.ranRounds kind k c r).k = s.k := rfl
@[simp] theorem State.ranRounds_c (kind : Kind) (k : Key) (c : Counter) (r : BitVec 8) :
    (s.ranRounds kind k c r).c = s.c := rfl
@[simp] theorem State.ranRounds_rounds (kind : Kind) (k : Key) (c : Counter) (r : BitVec 8) :
    (s.ranRounds kind k c r).rounds = s.rounds := rfl
@[simp] theorem State.ranRounds_constructed (kind : Kind) (k : Key) (c : Counter) (r : BitVec 8) :
    (s.ranRounds kind k c r).constructed = s.constructed := rfl
@[simp] theorem State.ranRounds_sk (kind : Kind) (k : Key) (c : Counter) (r : BitVec 8) :
    (s.ranRounds kind k c r).sk = keyadvN r.toNat k := rfl
@[simp] theorem State.ranRounds_sc (kind : Kind) (k : Key) (c : Counter) (r : BitVec 8) :
    (s.ranRounds kind k c r).sc = mix k c r.toNat := rfl
@[simp] theorem State.ranRounds_ri (kind : Kind) (k : Key) (c : Counter) (r : BitVec 8) :
    (s.ranRounds kind k c r).ri = r := rfl
@[simp] theorem State.ranRounds_rt (kind : Kind) (k : Key) (c : Counter) (r : BitVec 8) :
    (s.ranRounds kind k c r).rt = r := rfl
@[simp] theorem State.ranRounds_kind (kind : Kind) (k : Key) (c : Counter) (r : BitVec 8) :
    (s.ranRounds kind k c r).kind = kind := rfl
@[simp] theorem State.ranRounds_ph (kind : Kind) (k : Key) (c : Counter) (r : BitVec 8) :
    (s.ranRounds kind k c r).ph = .idle := rfl
@[simp] theorem State.ranRounds_offered (kind : Kind) (k : Key) (c : Counter) (r : BitVec 8) :
    (s.ranRounds kind k c r).offered = s.offered := rfl
@[simp] theorem State.ranRounds_accepted (kind : Kind) (k : Key) (c : Counter) (r : BitVec 8) :
    (s.ranRounds kind k c r).accepted = s.accepted := rfl
@[simp] theorem State.ranRounds_responses (kind : Kind) (k : Key) (c : Counter) (r : BitVec 8) :
    (s.ranRounds kind k c r).responses = s.responses := rfl
@[simp] theorem State.ranRounds_leafOutputs (kind : Kind) (k : Key) (c : Counter) (r : BitVec 8) :
    (s.ranRounds kind k c r).leafOutputs = s.leafOutputs := rfl

/-! `State.observe` -/

@[simp] theorem State.observe_cfg (o : LeafOutput) : (s.observe o).cfg = s.cfg := rfl
@[simp] theorem State.observe_k (o : LeafOutput) : (s.observe o).k = s.k := rfl
@[simp] theorem State.observe_c (o : LeafOutput) : (s.observe o).c = s.c := rfl
@[simp] theorem State.observe_rounds (o : LeafOutput) : (s.observe o).rounds = s.rounds := rfl
@[simp] theorem State.observe_constructed (o : LeafOutput) : (s.observe o).constructed = s.constructed := rfl
@[simp] theorem State.observe_sk (o : LeafOutput) : (s.observe o).sk = s.sk := rfl
@[simp] theorem State.observe_sc (o : LeafOutput) : (s.observe o).sc = s.sc := rfl
@[simp] theorem State.observe_ri (o : LeafOutput) : (s.observe o).ri = s.ri := rfl
@[simp] theorem State.observe_rt (o : LeafOutput) : (s.observe o).rt = s.rt := rfl
@[simp] theorem State.observe_kind (o : LeafOutput) : (s.observe o).kind = s.kind := rfl
@[simp] theorem State.observe_ph (o : LeafOutput) : (s.observe o).ph = s.ph := rfl
@[simp] theorem State.observe_offered (o : LeafOutput) : (s.observe o).offered = s.offered := rfl
@[simp] theorem State.observe_accepted (o : LeafOutput) : (s.observe o).accepted = s.accepted := rfl
@[simp] theorem State.observe_responses (o : LeafOutput) : (s.observe o).responses = s.responses := rfl
@[simp] theorem State.observe_leafOutputs (o : LeafOutput) : (s.observe o).leafOutputs = s.leafOutputs ++ [o] := rfl

/-! `State.offer` -/

@[simp] theorem State.offer_cfg (o : Offer) : (s.offer o).cfg = s.cfg := rfl
@[simp] theorem State.offer_k (o : Offer) : (s.offer o).k = s.k := rfl
@[simp] theorem State.offer_c (o : Offer) : (s.offer o).c = s.c := rfl
@[simp] theorem State.offer_rounds (o : Offer) : (s.offer o).rounds = s.rounds := rfl
@[simp] theorem State.offer_constructed (o : Offer) : (s.offer o).constructed = s.constructed := rfl
@[simp] theorem State.offer_sk (o : Offer) : (s.offer o).sk = s.sk := rfl
@[simp] theorem State.offer_sc (o : Offer) : (s.offer o).sc = s.sc := rfl
@[simp] theorem State.offer_ri (o : Offer) : (s.offer o).ri = s.ri := rfl
@[simp] theorem State.offer_rt (o : Offer) : (s.offer o).rt = s.rt := rfl
@[simp] theorem State.offer_kind (o : Offer) : (s.offer o).kind = s.kind := rfl
@[simp] theorem State.offer_ph (o : Offer) : (s.offer o).ph = s.ph := rfl
@[simp] theorem State.offer_offered (o : Offer) : (s.offer o).offered = s.offered ++ [o] := rfl
@[simp] theorem State.offer_accepted (o : Offer) : (s.offer o).accepted = s.accepted := rfl
@[simp] theorem State.offer_responses (o : Offer) : (s.offer o).responses = s.responses := rfl
@[simp] theorem State.offer_leafOutputs (o : Offer) : (s.offer o).leafOutputs = s.leafOutputs := rfl

/-! `State.offerFirst` -/

@[simp] theorem State.offerFirst_cfg (o : Offer) : (s.offerFirst o).cfg = s.cfg := rfl
@[simp] theorem State.offerFirst_k (o : Offer) : (s.offerFirst o).k = s.k := rfl
@[simp] theorem State.offerFirst_c (o : Offer) : (s.offerFirst o).c = s.c := rfl
@[simp] theorem State.offerFirst_rounds (o : Offer) : (s.offerFirst o).rounds = s.rounds := rfl
@[simp] theorem State.offerFirst_constructed (o : Offer) : (s.offerFirst o).constructed = s.constructed := rfl
@[simp] theorem State.offerFirst_sk (o : Offer) : (s.offerFirst o).sk = s.sk := rfl
@[simp] theorem State.offerFirst_sc (o : Offer) : (s.offerFirst o).sc = s.sc := rfl
@[simp] theorem State.offerFirst_ri (o : Offer) : (s.offerFirst o).ri = s.ri := rfl
@[simp] theorem State.offerFirst_rt (o : Offer) : (s.offerFirst o).rt = s.rt := rfl
@[simp] theorem State.offerFirst_kind (o : Offer) : (s.offerFirst o).kind = s.kind := rfl
@[simp] theorem State.offerFirst_ph (o : Offer) : (s.offerFirst o).ph = .idle := rfl
@[simp] theorem State.offerFirst_offered (o : Offer) : (s.offerFirst o).offered = o :: s.offered := rfl
@[simp] theorem State.offerFirst_accepted (o : Offer) : (s.offerFirst o).accepted = s.accepted := rfl
@[simp] theorem State.offerFirst_responses (o : Offer) : (s.offerFirst o).responses = s.responses := rfl
@[simp] theorem State.offerFirst_leafOutputs (o : Offer) : (s.offerFirst o).leafOutputs = s.leafOutputs := rfl

/-! `State.take` -/

@[simp] theorem State.take_cfg (o : Offer) (rest : List Offer) : (s.take o rest).cfg = s.cfg := rfl
@[simp] theorem State.take_k (o : Offer) (rest : List Offer) : (s.take o rest).k = s.k := rfl
@[simp] theorem State.take_c (o : Offer) (rest : List Offer) : (s.take o rest).c = s.c := rfl
@[simp] theorem State.take_rounds (o : Offer) (rest : List Offer) : (s.take o rest).rounds = s.rounds := rfl
@[simp] theorem State.take_constructed (o : Offer) (rest : List Offer) :
    (s.take o rest).constructed = s.constructed := rfl
@[simp] theorem State.take_sk (o : Offer) (rest : List Offer) : (s.take o rest).sk = s.sk := rfl
@[simp] theorem State.take_sc (o : Offer) (rest : List Offer) : (s.take o rest).sc = s.sc := rfl
@[simp] theorem State.take_ri (o : Offer) (rest : List Offer) : (s.take o rest).ri = s.ri := rfl
@[simp] theorem State.take_rt (o : Offer) (rest : List Offer) : (s.take o rest).rt = s.rt := rfl
@[simp] theorem State.take_kind (o : Offer) (rest : List Offer) : (s.take o rest).kind = s.kind := rfl
@[simp] theorem State.take_ph (o : Offer) (rest : List Offer) : (s.take o rest).ph = s.ph := rfl
@[simp] theorem State.take_offered (o : Offer) (rest : List Offer) : (s.take o rest).offered = rest := rfl
@[simp] theorem State.take_accepted (o : Offer) (rest : List Offer) :
    (s.take o rest).accepted = s.accepted + commandCount o := rfl
@[simp] theorem State.take_responses (o : Offer) (rest : List Offer) : (s.take o rest).responses = s.responses := rfl
@[simp] theorem State.take_leafOutputs (o : Offer) (rest : List Offer) :
    (s.take o rest).leafOutputs = s.leafOutputs := rfl

/-! `State.applyReset` -/

@[simp] theorem State.applyReset_cfg : (s.applyReset).cfg = s.cfg := rfl
@[simp] theorem State.applyReset_k : (s.applyReset).k = State.reset.k := rfl
@[simp] theorem State.applyReset_c : (s.applyReset).c = State.reset.c := rfl
@[simp] theorem State.applyReset_rounds : (s.applyReset).rounds = State.reset.rounds := rfl
@[simp] theorem State.applyReset_constructed : (s.applyReset).constructed = State.reset.constructed := rfl
@[simp] theorem State.applyReset_sk : (s.applyReset).sk = State.reset.sk := rfl
@[simp] theorem State.applyReset_sc : (s.applyReset).sc = State.reset.sc := rfl
@[simp] theorem State.applyReset_ri : (s.applyReset).ri = State.reset.ri := rfl
@[simp] theorem State.applyReset_rt : (s.applyReset).rt = State.reset.rt := rfl
@[simp] theorem State.applyReset_kind : (s.applyReset).kind = State.reset.kind := rfl
@[simp] theorem State.applyReset_ph : (s.applyReset).ph = State.reset.ph := rfl
@[simp] theorem State.applyReset_offered : (s.applyReset).offered = State.reset.offered := rfl
@[simp] theorem State.applyReset_accepted : (s.applyReset).accepted = State.reset.accepted := rfl
@[simp] theorem State.applyReset_responses : (s.applyReset).responses = State.reset.responses := rfl
@[simp] theorem State.applyReset_leafOutputs : (s.applyReset).leafOutputs = State.reset.leafOutputs := rfl

/-! `State.loadScratch` -/

@[simp] theorem State.loadScratch_cfg (kind : Kind) (k : Key) (c : Counter) (r : BitVec 8) :
    (s.loadScratch kind k c r).cfg = s.cfg := rfl
@[simp] theorem State.loadScratch_k (kind : Kind) (k : Key) (c : Counter) (r : BitVec 8) :
    (s.loadScratch kind k c r).k = s.k := rfl
@[simp] theorem State.loadScratch_c (kind : Kind) (k : Key) (c : Counter) (r : BitVec 8) :
    (s.loadScratch kind k c r).c = s.c := rfl
@[simp] theorem State.loadScratch_rounds (kind : Kind) (k : Key) (c : Counter) (r : BitVec 8) :
    (s.loadScratch kind k c r).rounds = s.rounds := rfl
@[simp] theorem State.loadScratch_constructed (kind : Kind) (k : Key) (c : Counter) (r : BitVec 8) :
    (s.loadScratch kind k c r).constructed = s.constructed := rfl
@[simp] theorem State.loadScratch_sk (kind : Kind) (k : Key) (c : Counter) (r : BitVec 8) :
    (s.loadScratch kind k c r).sk = k := rfl
@[simp] theorem State.loadScratch_sc (kind : Kind) (k : Key) (c : Counter) (r : BitVec 8) :
    (s.loadScratch kind k c r).sc = c := rfl
@[simp] theorem State.loadScratch_ri (kind : Kind) (k : Key) (c : Counter) (r : BitVec 8) :
    (s.loadScratch kind k c r).ri = 0 := rfl
@[simp] theorem State.loadScratch_rt (kind : Kind) (k : Key) (c : Counter) (r : BitVec 8) :
    (s.loadScratch kind k c r).rt = r := rfl
@[simp] theorem State.loadScratch_kind (kind : Kind) (k : Key) (c : Counter) (r : BitVec 8) :
    (s.loadScratch kind k c r).kind = kind := rfl
@[simp] theorem State.loadScratch_ph (kind : Kind) (k : Key) (c : Counter) (r : BitVec 8) :
    (s.loadScratch kind k c r).ph = .run := rfl
@[simp] theorem State.loadScratch_offered (kind : Kind) (k : Key) (c : Counter) (r : BitVec 8) :
    (s.loadScratch kind k c r).offered = s.offered := rfl
@[simp] theorem State.loadScratch_accepted (kind : Kind) (k : Key) (c : Counter) (r : BitVec 8) :
    (s.loadScratch kind k c r).accepted = s.accepted := rfl
@[simp] theorem State.loadScratch_responses (kind : Kind) (k : Key) (c : Counter) (r : BitVec 8) :
    (s.loadScratch kind k c r).responses = s.responses := rfl
@[simp] theorem State.loadScratch_leafOutputs (kind : Kind) (k : Key) (c : Counter) (r : BitVec 8) :
    (s.loadScratch kind k c r).leafOutputs = s.leafOutputs := rfl

/-! `State.roundStep` -/

@[simp] theorem State.roundStep_cfg : (s.roundStep).cfg = s.cfg := rfl
@[simp] theorem State.roundStep_k : (s.roundStep).k = s.k := rfl
@[simp] theorem State.roundStep_c : (s.roundStep).c = s.c := rfl
@[simp] theorem State.roundStep_rounds : (s.roundStep).rounds = s.rounds := rfl
@[simp] theorem State.roundStep_constructed : (s.roundStep).constructed = s.constructed := rfl
@[simp] theorem State.roundStep_sk : (s.roundStep).sk = keyadv s.sk := rfl
@[simp] theorem State.roundStep_sc : (s.roundStep).sc = roundFn s.sc s.sk := rfl
@[simp] theorem State.roundStep_ri : (s.roundStep).ri = BitVec.ofNat 8 (s.ri.toNat + 1) := rfl
@[simp] theorem State.roundStep_rt : (s.roundStep).rt = s.rt := rfl
@[simp] theorem State.roundStep_kind : (s.roundStep).kind = s.kind := rfl
@[simp] theorem State.roundStep_ph : (s.roundStep).ph = s.ph := rfl
@[simp] theorem State.roundStep_offered : (s.roundStep).offered = s.offered := rfl
@[simp] theorem State.roundStep_accepted : (s.roundStep).accepted = s.accepted := rfl
@[simp] theorem State.roundStep_responses : (s.roundStep).responses = s.responses := rfl
@[simp] theorem State.roundStep_leafOutputs : (s.roundStep).leafOutputs = s.leafOutputs := rfl

/-! `State.toIdle` -/

@[simp] theorem State.toIdle_cfg : (s.toIdle).cfg = s.cfg := rfl
@[simp] theorem State.toIdle_k : (s.toIdle).k = s.k := rfl
@[simp] theorem State.toIdle_c : (s.toIdle).c = s.c := rfl
@[simp] theorem State.toIdle_rounds : (s.toIdle).rounds = s.rounds := rfl
@[simp] theorem State.toIdle_constructed : (s.toIdle).constructed = s.constructed := rfl
@[simp] theorem State.toIdle_sk : (s.toIdle).sk = s.sk := rfl
@[simp] theorem State.toIdle_sc : (s.toIdle).sc = s.sc := rfl
@[simp] theorem State.toIdle_ri : (s.toIdle).ri = s.ri := rfl
@[simp] theorem State.toIdle_rt : (s.toIdle).rt = s.rt := rfl
@[simp] theorem State.toIdle_kind : (s.toIdle).kind = s.kind := rfl
@[simp] theorem State.toIdle_ph : (s.toIdle).ph = .idle := rfl
@[simp] theorem State.toIdle_offered : (s.toIdle).offered = s.offered := rfl
@[simp] theorem State.toIdle_accepted : (s.toIdle).accepted = s.accepted := rfl
@[simp] theorem State.toIdle_responses : (s.toIdle).responses = s.responses := rfl
@[simp] theorem State.toIdle_leafOutputs : (s.toIdle).leafOutputs = s.leafOutputs := rfl

/-! `State.finishCounter`: the stored counter moves for NEXT and NEXTB, and nothing else does. -/

theorem State.finishCounter_eq : s.finishCounter = if s.kind = .gen then s else s.advanceCounter := by
  unfold State.finishCounter; cases s.kind <;> rfl

@[simp] theorem State.finishCounter_c : s.finishCounter.c = if s.kind = .gen then s.c else ctrinc s.c := by
  rw [State.finishCounter_eq]; split <;> rfl
@[simp] theorem State.finishCounter_cfg : s.finishCounter.cfg = s.cfg := by rw [State.finishCounter_eq]; split <;> rfl
@[simp] theorem State.finishCounter_k : s.finishCounter.k = s.k := by rw [State.finishCounter_eq]; split <;> rfl
@[simp] theorem State.finishCounter_rounds : s.finishCounter.rounds = s.rounds := by rw [State.finishCounter_eq]; split <;> rfl
@[simp] theorem State.finishCounter_constructed : s.finishCounter.constructed = s.constructed := by rw [State.finishCounter_eq]; split <;> rfl
@[simp] theorem State.finishCounter_sk : s.finishCounter.sk = s.sk := by rw [State.finishCounter_eq]; split <;> rfl
@[simp] theorem State.finishCounter_sc : s.finishCounter.sc = s.sc := by rw [State.finishCounter_eq]; split <;> rfl
@[simp] theorem State.finishCounter_ri : s.finishCounter.ri = s.ri := by rw [State.finishCounter_eq]; split <;> rfl
@[simp] theorem State.finishCounter_rt : s.finishCounter.rt = s.rt := by rw [State.finishCounter_eq]; split <;> rfl
@[simp] theorem State.finishCounter_kind : s.finishCounter.kind = s.kind := by rw [State.finishCounter_eq]; split <;> rfl
@[simp] theorem State.finishCounter_ph : s.finishCounter.ph = s.ph := by rw [State.finishCounter_eq]; split <;> rfl
@[simp] theorem State.finishCounter_offered : s.finishCounter.offered = s.offered := by rw [State.finishCounter_eq]; split <;> rfl
@[simp] theorem State.finishCounter_accepted : s.finishCounter.accepted = s.accepted := by rw [State.finishCounter_eq]; split <;> rfl
@[simp] theorem State.finishCounter_responses : s.finishCounter.responses = s.responses := by rw [State.finishCounter_eq]; split <;> rfl
@[simp] theorem State.finishCounter_leafOutputs : s.finishCounter.leafOutputs = s.leafOutputs := by rw [State.finishCounter_eq]; split <;> rfl

/-! `State.finish` -/

@[simp] theorem State.finish_cfg : s.finish.cfg = s.cfg := by simp [State.finish]
@[simp] theorem State.finish_k : s.finish.k = s.k := by simp [State.finish]
@[simp] theorem State.finish_c : s.finish.c = if s.kind = .gen then s.c else ctrinc s.c := by simp [State.finish]
@[simp] theorem State.finish_rounds : s.finish.rounds = s.rounds := by simp [State.finish]
@[simp] theorem State.finish_constructed : s.finish.constructed = s.constructed := by simp [State.finish]
@[simp] theorem State.finish_sk : s.finish.sk = s.sk := by simp [State.finish]
@[simp] theorem State.finish_sc : s.finish.sc = s.sc := by simp [State.finish]
@[simp] theorem State.finish_ri : s.finish.ri = s.ri := by simp [State.finish]
@[simp] theorem State.finish_rt : s.finish.rt = s.rt := by simp [State.finish]
@[simp] theorem State.finish_kind : s.finish.kind = s.kind := by simp [State.finish]
@[simp] theorem State.finish_ph : s.finish.ph = .idle := by simp [State.finish]
@[simp] theorem State.finish_offered : s.finish.offered = s.offered := by simp [State.finish]
@[simp] theorem State.finish_accepted : s.finish.accepted = s.accepted := by simp [State.finish]
@[simp] theorem State.finish_responses : s.finish.responses = s.responses ++ [⟨.ok, pack s.sc⟩] := by simp [State.finish]
@[simp] theorem State.finish_leafOutputs : s.finish.leafOutputs = s.leafOutputs := by simp [State.finish]

/-! `State.generator?` -/

@[simp] theorem State.generator?_of_constructed (h : s.constructed = true) : s.generator? = some ⟨s.k, s.c, s.rounds⟩ := by
  simp [State.generator?, h]

@[simp] theorem State.generator?_of_not_constructed (h : s.constructed = false) : s.generator? = none := by
  simp [State.generator?, h]

end Sys2Proof.Machine
end

