-- ==== Sys2Proof/Laws/Ops.lean ====
section
/-! SUPPORT. One lemma per shared operation that says once what it can do; callers cite it instead of unfolding it. -/

namespace Sys2Proof.Machine

/-! ## Configuration -/

/-- The datapath exists for one configuration, this hardware's. -/
theorem supported_iff (cfg : Config) : supported cfg = true ↔ cfg = Config.hardware := by
  obtain ⟨w, n, kn⟩ := cfg
  simp only [supported, configError?, Config.hardware, Config.mk.injEq, Bool.and_eq_true, beq_iff_eq]
  constructor
  · rintro ⟨h, hn⟩
    split at h
    · simp at h
    · split at h
      · simp at h
      · omega
  · rintro ⟨rfl, rfl, rfl⟩; simp

theorem validWithoutDatapath_of_supported {cfg : Config} (h : supported cfg = true) :
    validWithoutDatapath cfg = false := by
  rw [(supported_iff cfg).1 h]; decide

theorem supported_eq_false_of_validWithoutDatapath {cfg : Config} (h : validWithoutDatapath cfg = true) :
    supported cfg = false := by
  simp_all [supported, validWithoutDatapath]

theorem configError?_of_supported {cfg : Config} (h : supported cfg = true) : configError? cfg = none := by
  rw [(supported_iff cfg).1 h]; decide

/-! ## Guards -/

@[simp] theorem requireDatapath_of_supported {s : State} (body : Host.Outcome State Fault Refusal)
    (h : supported s.cfg = true) : requireDatapath s body = body := by simp [requireDatapath, h]

@[simp] theorem requireDatapath_of_not_supported {s : State} (body : Host.Outcome State Fault Refusal)
    (h : supported s.cfg = false) : requireDatapath s body = .refused .unsupportedConfiguration := by
  simp [requireDatapath, h]

/-- `requireDatapath` answers a next state only on the datapath's configuration, and then what its body answers. -/
theorem requireDatapath_eq_next {s t : State} {body : Host.Outcome State Fault Refusal}
    (h : requireDatapath s body = .next t) : supported s.cfg = true ∧ body = .next t := by
  unfold requireDatapath at h
  split at h
  · exact ⟨‹_›, h⟩
  · cases h

theorem readGenerator_of_constructed {s : State} (body : Generator → Host.Outcome State Fault Refusal)
    (hs : supported s.cfg = true) (hc : s.constructed = true) :
    readGenerator s body = body ⟨s.k, s.c, s.rounds⟩ := by
  simp [readGenerator, validWithoutDatapath_of_supported hs, hs, hc]

theorem readGenerator_of_not_constructed {s : State} (body : Generator → Host.Outcome State Fault Refusal)
    (hs : validWithoutDatapath s.cfg = false) (hc : s.constructed = false) :
    readGenerator s body = .fault (.useBeforeConstruct s.accepted) := by
  simp [readGenerator, hs, hc]

theorem readGenerator_of_validWithoutDatapath {s : State} (body : Generator → Host.Outcome State Fault Refusal)
    (hs : validWithoutDatapath s.cfg = true) : readGenerator s body = .refused .unsupportedConfiguration := by
  simp [readGenerator, hs]

/-- `readGenerator` answers a next state only on the datapath's configuration and for a constructed block, and then
what its body answers for the stored generator. -/
theorem readGenerator_eq_next {s t : State} {body : Generator → Host.Outcome State Fault Refusal}
    (h : readGenerator s body = .next t) :
    supported s.cfg = true ∧ s.constructed = true ∧ body ⟨s.k, s.c, s.rounds⟩ = .next t := by
  unfold readGenerator at h
  split at h
  · cases h
  · cases hc : s.constructed with
    | false => simp [hc] at h
    | true =>
      simp only [State.generator?_of_constructed s hc] at h
      obtain ⟨h1, h2⟩ := requireDatapath_eq_next h
      exact ⟨h1, rfl, h2⟩

/-! ## Fetching and stepping -/

theorem fetch_nil {s : State} (h : s.offered = []) : fetch s = .nothing := by simp [fetch, h]

theorem fetch_ok {s : State} {o : Offer} {rest : List Offer} {i : Instr} (h : s.offered = o :: rest)
    (hd : decode o = .ok i) : fetch s = .instr i (s.take o rest) := by simp [fetch, h, hd]

theorem fetch_error {s : State} {o : Offer} {rest : List Offer} {why : Illegal} (h : s.offered = o :: rest)
    (hd : decode o = .error why) :
    fetch s = .invalid (.illegalCommand (s.accepted + commandCount o) why) := by simp [fetch, h, hd]

/-- Everything a command-level step that answers a next state can be: nothing to do, one instruction carried out, or a
controller step of a command in progress. -/
theorem step_cases {s t : State} (h : step s = .next t) :
    (s.ph = .idle ∧ s.offered = [] ∧ t = s) ∨
    (∃ o rest i, s.ph = .idle ∧ s.offered = o :: rest ∧ decode o = .ok i ∧ exec i (s.take o rest) = .next t) ∨
    (s.ph = .run ∧ runStep s = .next t) := by
  unfold step at h
  cases hp : s.ph with
  | run => rw [hp] at h; exact .inr (.inr ⟨rfl, h⟩)
  | idle =>
    rw [hp] at h
    cases ho : s.offered with
    | nil => simp only [fetch_nil ho] at h; cases h; exact .inl ⟨rfl, rfl, rfl⟩
    | cons o rest =>
      cases hd : decode o with
      | ok i =>
        simp only [fetch_ok ho hd] at h
        exact .inr (.inl ⟨o, rest, i, rfl, rfl, hd, h⟩)
      | error why => simp only [fetch_error ho hd] at h; cases h

/-- Everything a step of the controller's machine that answers a next state can be. -/
theorem controllerStep_cases {s t : State} (h : controllerStep s = .next t) :
    (s.ph = .idle ∧ s.offered = [] ∧ t = s) ∨
    (∃ o rest i, s.ph = .idle ∧ s.offered = o :: rest ∧ decode o = .ok i ∧ accept i (s.take o rest) = .next t) ∨
    (s.ph = .run ∧ runStep s = .next t) := by
  unfold controllerStep at h
  cases hp : s.ph with
  | run => rw [hp] at h; exact .inr (.inr ⟨rfl, h⟩)
  | idle =>
    rw [hp] at h
    cases ho : s.offered with
    | nil => simp only [fetch_nil ho] at h; cases h; exact .inl ⟨rfl, rfl, rfl⟩
    | cons o rest =>
      cases hd : decode o with
      | ok i =>
        simp only [fetch_ok ho hd] at h
        exact .inr (.inl ⟨o, rest, i, rfl, rfl, hd, h⟩)
      | error why => simp only [fetch_error ho hd] at h; cases h

/-- Everything the controller does for a command in progress: a round while rounds are left, else the finish. -/
theorem runStep_cases {s t : State} (h : runStep s = .next t) :
    (s.ph = .run ∧ s.ri.toNat < s.rt.toNat ∧ t = s.roundStep) ∨ (s.ph = .run ∧ s.ri = s.rt ∧ t = s.finish) := by
  unfold runStep at h
  split at h
  · rename_i hr
    simp only [roundStepEnabled, Bool.and_eq_true, beq_iff_eq, decide_eq_true_eq] at hr
    cases h; exact .inl ⟨hr.1, hr.2, rfl⟩
  · split at h
    · rename_i hf
      simp only [finishEnabled, Bool.and_eq_true, beq_iff_eq] at hf
      cases h; exact .inr ⟨hf.1, hf.2, rfl⟩
    · cases h

end Sys2Proof.Machine
end

