-- ==== Sys2Proof/Laws/Controller.lean ====
section
/-! SUPPORT. Small lemmas on the controller's steps and on runs of either machine. -/

namespace Sys2Proof.Machine

theorem runStep_of_lt {s : State} (hp : s.ph = .run) (h : s.ri.toNat < s.rt.toNat) : runStep s = .next s.roundStep := by
  simp [runStep, roundStepEnabled, hp, h]

theorem runStep_of_eq {s : State} (hp : s.ph = .run) (h : s.ri = s.rt) : runStep s = .next s.finish := by
  simp [runStep, roundStepEnabled, finishEnabled, hp, h]

theorem controllerStep_of_run {s : State} (hp : s.ph = .run) : controllerStep s = runStep s := by
  simp [controllerStep, hp]

/-- While rounds are left, `RI + 1` does not wrap (R26). -/
theorem State.roundStep_ri_toNat {s : State} (h : s.ri.toNat < s.rt.toNat) :
    s.roundStep.ri.toNat = s.ri.toNat + 1 := by
  have := s.rt.isLt
  simp only [State.roundStep_ri, BitVec.toNat_ofNat]
  omega

/-- A command word counts as one command, a leaf evaluation as none. -/
theorem commandCount_of_decode {o : Offer} {i : Instr} (h : decode o = .ok i) :
    commandCount o = if Safety.isCommand i then 1 else 0 := by
  cases o with
  | command cw =>
    simp only [decode, decodeCommand] at h
    split at h
    · split at h <;> cases h <;> rfl
    · cases h
  | roundPorts x => cases h; rfl
  | keyPorts x => cases h; rfl
  | counterPorts x => cases h; rfl

/-- A run goes on from where a shorter one came to. -/
theorem run_add (M : Host.Core) (a b : Nat) (s t : M.State) (h : M.run a s = .next t) :
    M.run (a + b) s = M.run b t := by
  induction a generalizing s with
  | zero => cases h; simp
  | succ a ih =>
    rw [show a + 1 + b = (a + b) + 1 by omega]
    simp only [Host.Core.run] at h ⊢
    split at h <;> simp_all

/-- One step more in front of a run. -/
theorem run_succ (M : Host.Core) (n : Nat) (s t : M.State) (h : M.step s = .next t) :
    M.run (n + 1) s = M.run n t := by
  simp only [Host.Core.run, h]

end Sys2Proof.Machine
end

