-- ==== Sys2Proof/Laws/Operands.lean ====
section
/-! SUPPORT. The packings of arrays on a bus and the fields of a command word: what each bit is, and that reading takes
out what packing put in. -/

namespace Sys2Proof.Machine

/-- The bits of a packed counter, word by word. -/
theorem getLsbD_pack (c : Counter) (i : Nat) : (pack c).getLsbD i =
    if i < 32 then c.w0.getLsbD i else if i < 64 then c.w1.getLsbD (i - 32)
    else if i < 96 then c.w2.getLsbD (i - 64) else c.w3.getLsbD (i - 96) := by
  unfold pack
  rw [BitVec.getLsbD_append, BitVec.getLsbD_append, BitVec.getLsbD_append]
  split_ifs <;> first | rfl | omega

/-- The bits of a packed key, word by word. -/
theorem getLsbD_packKey (k : Key) (i : Nat) : (packKey k).getLsbD i =
    if i < 32 then k.w0.getLsbD i else k.w1.getLsbD (i - 32) := by
  unfold packKey
  rw [BitVec.getLsbD_append]

@[simp] theorem unpack_pack (c : Counter) : unpack (pack c) = c := by
  cases c
  simp only [unpack, Counter.mk.injEq]
  refine ⟨?_, ?_, ?_, ?_⟩ <;> ext i hi <;> simp [getLsbD_pack] <;> split_ifs <;> first | omega | rfl

@[simp] theorem unpackKey_packKey (k : Key) : unpackKey (packKey k) = k := by
  cases k
  simp only [unpackKey, Key.mk.injEq]
  refine ⟨?_, ?_⟩ <;> ext i hi <;> simp [getLsbD_packKey] <;> first | rfl | (rw [if_pos hi]; rfl)

@[simp] theorem pack_unpack (b : BitVec 128) : pack (unpack b) = b := by
  apply BitVec.eq_of_getLsbD_eq
  intro i hi
  simp only [getLsbD_pack, unpack, BitVec.getLsbD_extractLsb']
  split_ifs <;> rw [decide_eq_true (by omega), Bool.true_and] <;> congr 1 <;> omega

@[simp] theorem packKey_unpackKey (b : BitVec 64) : packKey (unpackKey b) = b := by
  apply BitVec.eq_of_getLsbD_eq
  intro i hi
  simp only [getLsbD_packKey, unpackKey, BitVec.getLsbD_extractLsb']
  split_ifs <;> rw [decide_eq_true (by omega), Bool.true_and] <;> congr 1 <;> omega

end Sys2Proof.Machine

namespace Sys2Proof

open Machine

/-- The bits of a command word, field by field (R70). -/
theorem getLsbD_commandWord (op : BitVec 3) (k : Key) (c : Counter) (r : BitVec 8) (i : Nat) :
    (commandWord op k c r).getLsbD i =
      if i < 3 then op.getLsbD i else if i < 8 then false else if i < 16 then r.getLsbD (i - 8)
      else if i < 80 then (packKey k).getLsbD (i - 16) else (pack c).getLsbD (i - 80) := by
  unfold commandWord
  simp only [BitVec.getLsbD_append]
  by_cases h1 : i < 3
  · simp [h1]
  by_cases h2 : i < 8
  · simp [h1, h2, show i - 3 < 5 by omega]
  by_cases h3 : i < 16
  · simp [h1, h2, h3, show ¬ i - 3 < 5 by omega, show i - 8 < 8 by omega, Nat.sub_sub]
  by_cases h4 : i < 80
  · simp [h1, h2, h3, h4, show ¬ i - 3 < 5 by omega, show ¬ i - 8 < 8 by omega, show i - 16 < 64 by omega, Nat.sub_sub]
  · simp [h1, h2, h3, h4, show ¬ i - 3 < 5 by omega, show ¬ i - 8 < 8 by omega, show ¬ i - 16 < 64 by omega, Nat.sub_sub]

section
variable (op : BitVec 3) (k : Key) (c : Counter) (r : BitVec 8)

@[simp] theorem opField_commandWord : opField (commandWord op k c r) = op := by
  apply BitVec.eq_of_getLsbD_eq
  intro i hi
  simp [opField, getLsbD_commandWord, hi]

@[simp] theorem rsvField_commandWord : rsvField (commandWord op k c r) = 0#5 := by
  apply BitVec.eq_of_getLsbD_eq
  intro i hi
  simp [rsvField, getLsbD_commandWord, show ¬ 3 + i < 3 by omega, show 3 + i < 8 by omega]

@[simp] theorem roundsField_commandWord : roundsField (commandWord op k c r) = r := by
  apply BitVec.eq_of_getLsbD_eq
  intro i hi
  simp [roundsField, getLsbD_commandWord, hi, show ¬ 8 + i < 3 by omega, show 8 + i < 16 by omega]

@[simp] theorem keyField_commandWord : keyField (commandWord op k c r) = k := by
  have h : (commandWord op k c r).extractLsb' 16 64 = packKey k := by
    apply BitVec.eq_of_getLsbD_eq
    intro i hi
    simp [getLsbD_commandWord, hi, show ¬ 16 + i < 3 by omega, show ¬ 16 + i < 8 by omega,
      show 16 + i < 80 by omega]
  rw [keyField, h, unpackKey_packKey]

@[simp] theorem ctrField_commandWord : ctrField (commandWord op k c r) = c := by
  have h : (commandWord op k c r).extractLsb' 80 128 = pack c := by
    apply BitVec.eq_of_getLsbD_eq
    intro i hi
    simp [getLsbD_commandWord, hi, show ¬ 80 + i < 3 by omega, show ¬ 80 + i < 8 by omega,
      show ¬ 80 + i < 16 by omega]
  rw [ctrField, h, unpack_pack]

end

end Sys2Proof
end

