-- ==== Sys2Proof/Laws/PerInstr.lean ====
section
/-! SUPPORT. A statement about every instruction as syntax, one lemma per constructor: what the encoder makes of it is
well formed, that is, a word a host keeping its duties may send (spec/30_encoding.md R77, R78, R86). -/

namespace Sys2Proof.Laws.EncodesWellFormed

/-- The instruction's encoding is well formed. -/
def Statement (i : Instr) : Prop := (encode i).wellFormed = true

/-- A command word whose operation code is assigned is well formed. -/
theorem of_op (op : BitVec 3) (k : Key) (c : Counter) (r : BitVec 8) (h : 1 ≤ op.toNat ∧ op.toNat ≤ 5) :
    (Offer.command (commandWord op k c r)).wellFormed = true := by
  have h1 : (commandWord op k c r).extractLsb' 3 5 = 0#5 := rsvField_commandWord op k c r
  have h2 : (commandWord op k c r).extractLsb' 0 3 = op := opField_commandWord op k c r
  simp [Offer.wellFormed, reservedZero, opAssigned, h1, h2, h]

theorem construct (k : Key) (c : Counter) (r : BitVec 8) : Statement (.construct k c r) :=
  of_op 1 k c r (by decide)

theorem next : Statement .next := of_op 2 _ _ _ (by decide)

theorem nextb : Statement .nextb := of_op 3 _ _ _ (by decide)

theorem peek : Statement .peek := of_op 4 _ _ _ (by decide)

theorem gen (k : Key) (c : Counter) (r : BitVec 8) : Statement (.gen k c r) := of_op 5 k c r (by decide)

theorem round (c : Counter) (k : Key) : Statement (.round c k) := rfl

theorem keyadv (k : Key) : Statement (.keyadv k) := rfl

theorem ctrinc (c : Counter) : Statement (.ctrinc c) := rfl

end Sys2Proof.Laws.EncodesWellFormed
end

