-- ==== Sys2Proof/Tests/Slice0.lean ====
section
/-! SUPPORT. Tests of the model against spec/95_test_vectors.md and the worked examples of the rules (expected values
copied from there, never from the model), the checks of WellFormed.lean on ill-formed terms, and for every statement
with hypotheses a concrete state and operands that meet them. -/

namespace Sys2Proof.Tests

open Sys2Proof Sys2Proof.Machine Sys2Proof.Safety

/-! ## Helpers -/

/-- A constructed idle block of this hardware. -/
def ready (k : Key) (c : Counter) (r : BitVec 8) : State :=
  { State.reset with k := k, c := c, rounds := r, constructed := true }

/-- A constructed block with a command in progress. -/
def busy (kind : Kind) (ri rt : BitVec 8) : State :=
  { State.reset with constructed := true, rounds := rt, kind := kind, ri := ri, rt := rt, ph := .run }

/-- The reset state of an instance of another configuration. -/
def onConfig (w n kn : Nat) : State := { State.reset with cfg := ⟨w, n, kn⟩ }

/-- The reset state with these things offered. -/
def offering (os : List Offer) : State := { State.reset with offered := os }

def zeroKey : Key := ⟨0, 0⟩
def zeroCtr : Counter := ⟨0, 0, 0, 0⟩
def onesCtr : Counter := ⟨0xFFFFFFFF, 0xFFFFFFFF, 0xFFFFFFFF, 0xFFFFFFFF⟩
def keyV3 : Key := ⟨0xa4093822, 0x299f31d0⟩
def ctrV3 : Counter := ⟨0x243f6a88, 0x85a308d3, 0x13198a2e, 0x03707344⟩

/-- What a next state answered last. -/
def lastResponse (o : Host.Outcome State Fault Refusal) : Option Response :=
  (nextState? o).bind fun t => t.responses.getLast?

/-- The counter of a next state. -/
def counterAfter (o : Host.Outcome State Fault Refusal) : Option Counter := (nextState? o).map fun t => t.c

/-- The leaf output of a next state. -/
def lastLeaf (o : Host.Outcome State Fault Refusal) : Option LeafOutput :=
  (nextState? o).bind fun t => t.leafOutputs.getLast?

/-! ## Well-formedness: an ill-formed term for each check -/

theorem test_reservedZero_refuses : reservedZero 0x0a = false ∧ reservedZero 0x82 = false := by decide
theorem test_opAssigned_refuses : opAssigned 0x00 = false ∧ opAssigned 0x06 = false ∧ opAssigned 0x07 = false := by
  decide
theorem test_offer_wellFormed : (Offer.command 0x0a).wellFormed = false ∧ (Offer.command 0x06).wellFormed = false ∧
    (Offer.command 0x02).wellFormed = true ∧ (Offer.keyPorts 7).wellFormed = true := by decide
theorem test_widthOk_refuses : (Config.mk 16 4 2).widthOk = false ∧ (Config.mk 16 4 2).wellFormed = false := by decide
theorem test_lengthOk_refuses : (Config.mk 32 4 3).lengthOk = false ∧ (Config.mk 32 5 2).wellFormed = false := by decide
theorem test_hardware_wellFormed : Config.hardware.wellFormed = true := by decide

/-! ## Decoding: words written out from R70, R71 and section 6.1 of the vectors -/

/-- E2, field by field as the vectors extract it. -/
theorem test_decode_construct : decodeCommand 0x0370734413198a2e85a308d3243f6a88299f31d0a40938220a01 =
    .ok (.construct ⟨0xa4093822, 0x299f31d0⟩ ⟨0x243f6a88, 0x85a308d3, 0x13198a2e, 0x03707344⟩ 10) := rfl

/-- E4: words of the key and the counter in index order. -/
theorem test_decode_construct_E4 : decodeCommand 0x000000000000000000000000ffffffff00000002000000010a01 =
    .ok (.construct ⟨1, 2⟩ ⟨0xffffffff, 0, 0, 0⟩ 10) := rfl

/-- E5 and E9: NEXT, canonical and with its ignored fields all ones. -/
theorem test_decode_next : decodeCommand 0x02 = .ok .next ∧
    decodeCommand 0xffffffffffffffffffffffffffffffffffffffffffffffffff02 = .ok .next := ⟨rfl, rfl⟩

/-- E6. -/
theorem test_decode_nextb : decodeCommand 0x03 = .ok .nextb := rfl

/-- E7. -/
theorem test_decode_peek : decodeCommand 0x04 = .ok .peek := rfl

/-- E10. -/
theorem test_decode_gen : decodeCommand 0x22222222000000001111111100000000f0f0f0f00f0f0f0f0105 =
    .ok (.gen ⟨0x0f0f0f0f, 0xf0f0f0f0⟩ ⟨0, 0x11111111, 0, 0x22222222⟩ 1) := rfl

/-- E11 to E16. -/
theorem test_decode_invalid : decodeCommand 0x00 = .error (.unassignedOp 0) ∧
    decodeCommand 0x06 = .error (.unassignedOp 6) ∧ decodeCommand 0x07 = .error (.unassignedOp 7) ∧
    decodeCommand 0x0a = .error .reservedNotZero ∧ decodeCommand 0x82 = .error .reservedNotZero ∧
    decodeCommand 0xffffffffffffffffffffffffffffffffffffffffffffffffffff = .error .reservedNotZero :=
  ⟨rfl, rfl, rfl, rfl, rfl, rfl⟩

/-- ROUND's ports: `c_in` in the low 128 bits (log entry 5), word i at bits 32i+31:32i (R91). -/
theorem test_decode_round : decodeTableWord 192 0x0000000600000005000000040000000300000002_00000001 =
    some (.round ⟨1, 2, 3, 4⟩ ⟨5, 6⟩) := rfl

/-- KEYADV's port (R101). -/
theorem test_decode_keyadv : decodeTableWord 64 0x299f31d0a4093822 = some (.keyadv keyV3) := rfl

/-- CTRINC's port (R131). -/
theorem test_decode_ctrinc : decodeTableWord 128 0x0370734413198a2e85a308d3243f6a88 = some (.ctrinc ctrV3) := rfl

/-- The table's own match values, also given as the eight bits the mask covers. -/
theorem test_decode_table_rows : decodeTableWord 8 0x05 = some (.gen zeroKey zeroCtr 0) ∧
    decodeTableWord 208 0x04 = some .peek ∧ decodeTableWord 208 0x06 = none := ⟨rfl, rfl, rfl⟩

/-! ## The leaf functions -/

/-- RF11. -/
theorem test_round_RF11 : lastLeaf (exec (.round ctrV3 keyV3) State.reset) =
    some (.roundOut 0xb37e02183728c377ad2d4ba22efd7704) := by decide

/-- RF8: the product is 64 bits, not reduced before its high half is taken. -/
theorem test_round_RF8 : roundFn ⟨2, 0, 2, 0⟩ zeroKey = ⟨1, 0x9b3d1aae, 1, 0xa4a23ea6⟩ := by decide

/-- KS7. -/
theorem test_keyadv_KS7 : lastLeaf (exec (.keyadv keyV3) State.reset) = some (.keyOut 0xe506e0554240b1db) := by decide

/-- KS6: no carry from word 0 into word 1. -/
theorem test_keyadv_KS6 : keyadv ⟨0x80000000, 0x80000000⟩ = ⟨0x1e3779b9, 0x3b67ae85⟩ := by decide

/-- CI10: a carry stops at the first word that does not wrap. -/
theorem test_ctrinc_CI10 : lastLeaf (exec (.ctrinc ⟨0xffffffff, 0xffffffff, 0, 0xffffffff⟩) State.reset) =
    some (.counterOut 0xffffffff000000010000000000000000) := by decide

/-- V5 and CI6. -/
theorem test_ctrinc_V5 : ctrinc onesCtr = zeroCtr ∧ ctrinc ⟨0, 0xffffffff, 0, 0⟩ = ⟨1, 0xffffffff, 0, 0⟩ := by decide

/-! ## The commands, each through `step` -/

/-- P1 line 1: CONSTRUCT from the reset state. -/
theorem test_construct_P1 : (nextState? (step (State.reset.withFetchWord 208 0x0a01))).map
    (fun t => (t.responses, t.generator?)) = some ([⟨.ok, 0⟩], some ⟨zeroKey, zeroCtr, 10⟩) := by decide

/-- R111 and section 6.2: WIDTH comes before LENGTH, and the word has bit 128 set. -/
theorem test_construct_errors : (lastResponse (exec (.construct zeroKey zeroCtr 10) (onConfig 16 5 2))).map
    (fun r => responseWord r) = some 0x100000000000000000000000000000000 ∧
    (lastResponse (exec (.construct zeroKey zeroCtr 10) (onConfig 32 5 2))).map
    (fun r => responseWord r) = some 0x200000000000000000000000000000000 := by decide

/-- P1 line 2 (V1). -/
theorem test_next_V1 : lastResponse (step ((ready zeroKey zeroCtr 10).withFetchWord 208 0x02)) =
    some ⟨.ok, 0x9b00dbd8bc57ac4ce169c58d6627e8d5⟩ ∧
    counterAfter (step ((ready zeroKey zeroCtr 10).withFetchWord 208 0x02)) = some ⟨1, 0, 0, 0⟩ := by decide

/-- P2 line 2 (V2): the wrap. -/
theorem test_next_V2 : lastResponse (exec .next (ready ⟨0xffffffff, 0xffffffff⟩ onesCtr 10)) =
    some ⟨.ok, 0x6d5451fda20bc7c641c83b0e408f276d⟩ ∧
    counterAfter (exec .next (ready ⟨0xffffffff, 0xffffffff⟩ onesCtr 10)) = some zeroCtr := by decide

/-- P1 line 4: the bytes a4 cc e4 f8 db 00 b2 5c eb 74 a5 b1 67 ff 7e 09, B[0] lowest. -/
theorem test_nextb_P1 : (lastResponse (exec .nextb (ready zeroKey ⟨1, 0, 0, 0⟩ 10))).map (fun r => bytesOfData r.data) =
    some [0xa4, 0xcc, 0xe4, 0xf8, 0xdb, 0x00, 0xb2, 0x5c, 0xeb, 0x74, 0xa5, 0xb1, 0x67, 0xff, 0x7e, 0x09] ∧
    counterAfter (exec .nextb (ready zeroKey ⟨1, 0, 0, 0⟩ 10)) = some ⟨2, 0, 0, 0⟩ := by decide

/-- P4 line 3. -/
theorem test_peek_P4 : lastResponse (exec .peek (ready ⟨1, 2⟩ ⟨0, 1, 0, 0⟩ 10)) =
    some ⟨.ok, 0x00000000000000000000000100000000⟩ := by decide

/-- P3 line 1 (V3): GEN before any CONSTRUCT. -/
theorem test_gen_V3 : lastResponse (step (State.reset.withFetchWord 208
    0x0370734413198a2e85a308d3243f6a88299f31d0a40938220a05)) =
    some ⟨.ok, 0x24126ea15001e42094fdccebd16cfe09⟩ := by decide

/-- G255: the largest round count. -/
theorem test_gen_G255 : mix keyV3 ctrV3 255 = ⟨0x2ded6bf1, 0xa5b32fff, 0x81c33ed9, 0xab0f15c3⟩ := by decide +kernel

/-- P6 (a) and (b): the two faults, naming command 1. -/
theorem test_faults : fault? (step (State.reset.withFetchWord 208 0x04)) = some (.useBeforeConstruct 1) ∧
    fault? (step ((ready zeroKey zeroCtr 10).withFetchWord 208 0x06)) = some (.illegalCommand 1 (.unassignedOp 6)) := by
  decide

/-- R160: the configuration (32, 2, 1). -/
theorem test_refusal : refusal? (exec .next (onConfig 32 2 1)) = some .unsupportedConfiguration ∧
    refusal? (exec (.gen zeroKey zeroCtr 1) (onConfig 16 4 2)) = some .unsupportedConfiguration := by decide

/-! ## The controller -/

/-- Row 1 of the trace of V3: one ROUNDSTEP, with the old key. -/
theorem test_roundStep_V3 : (nextState? (controllerStep { busy .gen 0 10 with sk := keyV3, sc := ctrV3 })).map
    (fun t => (t.sc, t.sk, t.ri)) =
    some (⟨0x2efd7704, 0xad2d4ba2, 0x3728c377, 0xb37e0218⟩, ⟨0x4240b1db, 0xe506e055⟩, 1) := by decide

/-- FINISH of a GEN leaves `C`, of a NEXT moves it on. -/
theorem test_finish : counterAfter (controllerStep (busy .gen 2 2)) = some zeroCtr ∧
    counterAfter (controllerStep (busy .next 2 2)) = some ⟨1, 0, 0, 0⟩ := by decide

/-! ## The text form (R83) -/

/-- `GEN 00000001 00000002, 00000005 00000000 00000000 00000000, 7`, whose command word section 5.2 gives. -/
theorem test_assemble : assemble
    (textGen ++ ' ' :: wordText 1 ++ ' ' :: wordText 2 ++ ',' :: ' ' :: wordText 5 ++ ' ' :: wordText 0 ++ ' ' :: wordText 0
      ++ ' ' :: wordText 0 ++ [',', ' ', '7', ' ', '#', 'x']) =
    some (.command 0x0000000000000000000000000000000500000002000000010705) := by decide

/-- A word is 8 lower-case digits, most significant first. -/
theorem test_wordText : wordText 0x6627e8d5 = ['6', '6', '2', '7', 'e', '8', 'd', '5'] := by decide

/-- `NEXT -> 6627e8d5 e169c58d bc57ac4c 9b00dbd8`. -/
theorem test_readLine_next : readLine (textNext ++ [' ', '-', '>', ' '] ++ ['6', '6', '2', '7', 'e', '8', 'd', '5', ' ',
    'e', '1', '6', '9', 'c', '5', '8', 'd', ' ', 'b', 'c', '5', '7', 'a', 'c', '4', 'c', ' ', '9', 'b', '0', '0', 'd',
    'b', 'd', '8']) = some ⟨some .next, some (.words ⟨0x6627e8d5, 0xe169c58d, 0xbc57ac4c, 0x9b00dbd8⟩)⟩ := by decide

/-! ## Witnesses: states and operands that meet the hypotheses of the statements -/

theorem test_witness_StepRunsTheDecodedInstruction :
    ((offering [.command 0x0a01]).ph = .idle ∧ (offering [.command 0x0a01]).offered = .command 0x0a01 :: [] ∧
      decode (.command 0x0a01) = .ok (.construct zeroKey zeroCtr 10)) ∧
    ((offering [.command 0]).ph = .idle ∧ (offering [.command 0]).offered = .command 0 :: [] ∧
      decode (.command 0) = .error (.unassignedOp 0)) ∧
    (State.reset.ph = .idle ∧ State.reset.offered = []) ∧ (busy .gen 0 1).ph = .run :=
  ⟨⟨rfl, rfl, rfl⟩, ⟨rfl, rfl, rfl⟩, ⟨rfl, rfl⟩, rfl⟩

theorem test_witness_OfferedTableWordRunsInTheNextStep :
    decodeTableWord 208 0x03 = some .nextb ∧ decodeTableWord 64 0 = some (.keyadv zeroKey) := ⟨rfl, rfl⟩

/-- One word per clause: `rsv` from its least to its greatest, every `op`. -/
theorem test_witness_DecodeReadsEachFieldAtItsPosition :
    ((0x08 : BitVec 208).extractLsb' 3 5 ≠ 0 ∧ (0xf8 : BitVec 208).extractLsb' 3 5 ≠ 0) ∧
    (∀ op : Fin 8, (BitVec.ofNat 208 op.val).extractLsb' 3 5 = 0#5 ∧
      (BitVec.ofNat 208 op.val).extractLsb' 0 3 = BitVec.ofNat 3 op.val) := by decide

theorem test_witness_OperandFieldsOfBareCommandsAreIgnored :
    ((0xffffffffffffffffffffffffffffffffffffffffffffffffff02 : BitVec 208).extractLsb' 0 8 = 0x02) ∧
    ((0xffffffffffffffffffffffffffffffffffffffffffffffffff03 : BitVec 208).extractLsb' 0 8 = 0x03) ∧
    ((0xffffffffffffffffffffffffffffffffffffffffffffffffff04 : BitVec 208).extractLsb' 0 8 = 0x04) := by decide

theorem test_witness_DecodeOfEncodeIsTheInstruction : (Instr.gen keyV3 ctrV3 255).wellFormed = true := rfl

/-- One offer for each clause: a word with operands, ports, and a word whose operand fields are ignored. -/
theorem test_witness_EncodeOfDecodeIsTheWord :
    (decode (.command 0xff05) = .ok (.gen zeroKey zeroCtr 255) ∧ Instr.gen zeroKey zeroCtr 255 ≠ .next ∧
      Instr.gen zeroKey zeroCtr 255 ≠ .nextb ∧ Instr.gen zeroKey zeroCtr 255 ≠ .peek) ∧
    decode (.counterPorts 0) = .ok (.ctrinc zeroCtr) ∧ decode (.command 0xff02) = .ok .next := by
  refine ⟨⟨rfl, ?_, ?_, ?_⟩, rfl, rfl⟩ <;> decide

theorem test_witness_KeyScheduleIteratesWithoutRepeating :
    (0 : Nat) < 2 ^ 32 ∧ (4294967295 : Nat) < 2 ^ 32 ∧ (0 : Nat) ≠ 4294967295 := by decide

theorem test_witness_MixIsABijectionOfTheCounter :
    (0 : Nat) < 2 ^ 128 ∧ (340282366920938463463374607431768211455 : Nat) < 2 ^ 128 ∧
      (0 : Nat) ≠ 340282366920938463463374607431768211455 := by decide

/-- A counter for each clause, at its boundary. -/
theorem test_witness_CounterIncrementRipples :
    ((0xFFFFFFFE : Word) ≠ 0xFFFFFFFF ∧ (0 : Word) ≠ 0xFFFFFFFF) ∧ ((0xFFFFFFFF : Word) = 0xFFFFFFFF) := by decide

theorem test_witness_CounterIncrementIsACycle :
    (340282366920938463463374607431768211456 : Nat) = 2 ^ 128 := by decide

/-- The state of most statements: this configuration, constructed. Both clauses of statements that split on the
configuration are met as well. -/
theorem test_witness_ready : supported (ready keyV3 ctrV3 255).cfg = true ∧ (ready keyV3 ctrV3 255).constructed = true ∧
    supported (onConfig 32 6 3).cfg = false := by decide

/-- The four clauses of CONSTRUCT, and where they meet: both conditions broken, one broken, none but `N`, none. -/
theorem test_witness_ConstructChecksThenStores :
    ((onConfig 31 5 2).cfg.w ≠ 32) ∧
    ((onConfig 32 5 2).cfg.w = 32 ∧ 2 * (onConfig 32 5 2).cfg.kn ≠ (onConfig 32 5 2).cfg.n) ∧
    ((onConfig 32 2 1).cfg.w = 32 ∧ 2 * (onConfig 32 2 1).cfg.kn = (onConfig 32 2 1).cfg.n ∧ (onConfig 32 2 1).cfg.n ≠ 4) ∧
    (State.reset.cfg.w = 32 ∧ 2 * State.reset.cfg.kn = State.reset.cfg.n ∧ State.reset.cfg.n = 4) := by decide

/-- An answer with each error, and the response it adds. -/
theorem test_witness_OnlyConstructReportsAnError :
    exec (.construct zeroKey zeroCtr 1) (onConfig 16 4 2) = .next { onConfig 16 4 2 with responses := [] ++ [⟨.width, 0⟩] } ∧
    exec (.construct zeroKey zeroCtr 1) (onConfig 32 4 3) = .next { onConfig 32 4 3 with responses := [] ++ [⟨.length, 0⟩] } ∧
    Err.width ≠ .ok ∧ Err.length ≠ .ok := by
  refine ⟨rfl, rfl, ?_, ?_⟩ <;> decide

theorem test_witness_GenAnswersTheMixOfItsOperands : supported State.reset.cfg = true ∧ (onConfig 16 4 2).cfg.w ≠ 32 ∧
    2 * (onConfig 32 4 3).cfg.kn ≠ (onConfig 32 4 3).cfg.n := by decide

theorem test_witness_DrawsAndPeekFaultBeforeConstruct : State.reset.constructed = false ∧ State.reset.cfg.n = 4 ∧
    (onConfig 16 4 2).cfg.w ≠ 32 ∧ (onConfig 16 4 2).constructed = false := by decide

theorem test_witness_AFaultNamesItsCommand :
    (offering [.command 0x06]).ph = .idle ∧
    step (offering [.command 0x06]) = .fault (.illegalCommand 1 (.unassignedOp 6)) ∧
    step (offering [.command 0x04]) = .fault (.useBeforeConstruct 1) := ⟨rfl, rfl, rfl⟩

/-- A command and a configuration for each clause: refused commands, a refusing step of each machine, and a refused run
of each with a longer one. -/
theorem test_witness_UnsupportedConfigurationsAreRefused :
    (isCommand .peek = true ∧ (onConfig 32 6 3).cfg.w = 32 ∧ 2 * (onConfig 32 6 3).cfg.kn = (onConfig 32 6 3).cfg.n ∧
      (onConfig 32 6 3).cfg.n ≠ 4) ∧ (onConfig 16 4 2).cfg.w ≠ 32 ∧
    (exec .peek (onConfig 32 6 3) = .refused .unsupportedConfiguration ∧
      step { onConfig 32 6 3 with offered := [.command 0x01] } = .refused .unsupportedConfiguration ∧
      controllerStep { onConfig 32 6 3 with offered := [.command 0x05] } = .refused .unsupportedConfiguration) ∧
    (1 ≤ 2 ∧ runSteps 1 { onConfig 32 6 3 with offered := [.command 0x01] } = .refused .unsupportedConfiguration ∧
      runController 1 { onConfig 32 6 3 with offered := [.command 0x01] } = .refused .unsupportedConfiguration) := by
  refine ⟨by decide, by decide, ⟨rfl, rfl, rfl⟩, by decide, rfl, rfl⟩

theorem test_witness_AFaultIsForGood :
    1 ≤ 5 ∧ runSteps 1 (offering [.command 0x02]) = .fault (.useBeforeConstruct 1) ∧
      runController 1 (offering [.command 0x02]) = .fault (.useBeforeConstruct 1) := ⟨by decide, rfl, rfl⟩

/-- The two draws, on a constructed block at the wrap. -/
theorem test_witness_DrawsDiffer : supported (ready keyV3 onesCtr 10).cfg = true ∧
    (ready keyV3 onesCtr 10).constructed = true ∧ isDraw .next = true ∧ isDraw .nextb = true := by decide

theorem test_witness_DrawsFollowTheCounterStream :
    ({ ready zeroKey onesCtr 10 with offered := [encode .next, encode .nextb] } : State).offered =
      [true, false].map (fun b => if b then encode .next else encode .nextb) ∧
    (ready zeroKey onesCtr 10).ph = .idle ∧ supported (ready zeroKey onesCtr 10).cfg = true ∧
    (ready zeroKey onesCtr 10).constructed = true := ⟨rfl, rfl, rfl, rfl⟩

/-- Two states with the same generator and different hidden registers, and an instruction that answers. -/
theorem test_witness_ResponseDependsOnArchitecturalStateOnly :
    (ready keyV3 ctrV3 0).cfg = ({ ready keyV3 ctrV3 0 with sk := keyV3 } : State).cfg ∧
    (ready keyV3 ctrV3 0).generator? = ({ ready keyV3 ctrV3 0 with sk := keyV3 } : State).generator? ∧
    exec .peek (ready keyV3 ctrV3 0) =
      .next { ready keyV3 ctrV3 0 with responses := [⟨.ok, pack ctrV3⟩] } := ⟨rfl, rfl, rfl⟩

/-- Two states that differ in the stored key before construction and in a scratch register. -/
theorem test_witness_HiddenStateIsNeverSeen :
    sameToHost State.reset { State.reset with k := keyV3, ri := 7 } := ⟨rfl, rfl, rfl, rfl, rfl, rfl, rfl, rfl⟩

/-- Every instruction but CONSTRUCT has a next state to speak of; one of each kind here. -/
theorem test_witness_KeyNeverAdvances : isConstruct .next = false ∧
    (nextState? (exec .next (ready keyV3 ctrV3 1))).isSome = true ∧
    isConstruct (.gen zeroKey zeroCtr 0) = false ∧ (nextState? (exec (.gen zeroKey zeroCtr 0) State.reset)).isSome = true := by
  decide

theorem test_witness_OneResponsePerCommandInOrder :
    (exec .peek (ready zeroKey zeroCtr 0) = .next { ready zeroKey zeroCtr 0 with responses := [⟨.ok, 0⟩] } ∧
      isCommand .peek = true) ∧
    (exec (.ctrinc zeroCtr) State.reset = .next { State.reset with leafOutputs := [.counterOut 1] } ∧
      isCommand (.ctrinc zeroCtr) = false) ∧
    (State.reset.ph = .idle ∧ step State.reset = .next State.reset) := ⟨⟨rfl, rfl⟩, ⟨rfl, rfl⟩, ⟨rfl, rfl⟩⟩

theorem test_witness_ConstructedFlag :
    (nextState? (exec (.construct zeroKey zeroCtr 0) State.reset)).isSome = true ∧
    step (ready zeroKey zeroCtr 0) = .next (ready zeroKey zeroCtr 0) ∧
    controllerStep (busy .gen 1 1) = .next (busy .gen 1 1).finish ∧ (busy .gen 1 1).constructed = true ∧
    State.reset.constructed = false ∧ needsGenerator .peek = true ∧
    exec .peek (ready zeroKey zeroCtr 0) = .next { ready zeroKey zeroCtr 0 with responses := [⟨.ok, 0⟩] } := by
  refine ⟨rfl, rfl, rfl, rfl, rfl, rfl, rfl⟩

theorem test_witness_CounterIsWrittenByConstructAndDrawsOnly :
    (nextState? (exec (.construct zeroKey ctrV3 0) State.reset)).isSome = true ∧
    ((nextState? (exec .nextb (ready zeroKey onesCtr 0))).isSome = true ∧ isDraw .nextb = true) ∧
    ((nextState? (exec .peek (ready zeroKey ctrV3 0))).isSome = true ∧ isDraw .peek = false ∧ isConstruct .peek = false) ∧
    (nextState? (accept .next (ready zeroKey ctrV3 3))).isSome = true ∧
    (nextState? (exec (.gen keyV3 ctrV3 1) State.reset)).isSome = true := by decide

/-- An answer of each shape the frame speaks of: CONSTRUCT, a draw, PEEK, GEN, a leaf module. -/
theorem test_witness_EveryInstructionKeepsItsFrame :
    (nextState? (exec (.construct keyV3 ctrV3 255) State.reset)).isSome = true ∧
    ((nextState? (exec .next (ready keyV3 onesCtr 2))).isSome = true ∧ isDraw .next = true ∧ isConstruct .next = false) ∧
    ((nextState? (exec .nextb (ready keyV3 onesCtr 2))).isSome = true ∧ isDraw .nextb = true) ∧
    (nextState? (exec .peek (ready keyV3 onesCtr 2))).isSome = true ∧
    (nextState? (exec (.gen keyV3 ctrV3 2) State.reset)).isSome = true ∧
    ((nextState? (exec (.keyadv keyV3) State.reset)).isSome = true ∧ isCommand (.keyadv keyV3) = false) := by decide

theorem test_witness_CounterWrapsSilentlyAndGoesOn :
    (ready keyV3 onesCtr 10).c = ⟨0xFFFFFFFF, 0xFFFFFFFF, 0xFFFFFFFF, 0xFFFFFFFF⟩ ∧
    supported (ready keyV3 onesCtr 10).cfg = true ∧ (ready keyV3 onesCtr 10).constructed = true := by decide

/-- Each of the three steps is enabled somewhere. -/
theorem test_witness_AtMostOneControllerStepIsEnabled : acceptEnabled (offering [.command 1]) = true ∧
    roundStepEnabled (busy .gen 254 255) = true ∧ finishEnabled (busy .gen 255 255) = true := by decide

/-- A word, and a block constructed or not, for each clause. -/
theorem test_witness_AcceptLoadsTheScratchRegisters :
    ((offering [.command 0x00]).ph = .idle ∧ (offering [.command 0x00]).offered = .command 0x00 :: [] ∧
      supported (offering [.command 0x00]).cfg = true ∧ (offering [.command 0x00]).constructed = false ∧
      (ready zeroKey zeroCtr 0).constructed = true) ∧
    decodeCommand 0x00 = .error (.unassignedOp 0) ∧ decodeCommand 0xff01 = .ok (.construct zeroKey zeroCtr 255) ∧
    decodeCommand 0x02 = .ok .next ∧ decodeCommand 0x03 = .ok .nextb ∧ decodeCommand 0x04 = .ok .peek ∧
    decodeCommand 0x05 = .ok (.gen zeroKey zeroCtr 0) :=
  ⟨⟨rfl, rfl, rfl, rfl, rfl⟩, rfl, rfl, rfl, rfl, rfl, rfl⟩

/-- The last round, and FINISH with and without an increment. -/
theorem test_witness_RoundStepAndFinishWriteTheirRegisters :
    ((busy .next 254 255).ph = .run ∧ (busy .next 254 255).ri.toNat < (busy .next 254 255).rt.toNat) ∧
    ((busy .nextb 255 255).ri = (busy .nextb 255 255).rt ∧ (busy .nextb 255 255).kind ≠ .gen) ∧
    ((busy .gen 0 0).ri = (busy .gen 0 0).rt ∧ (busy .gen 0 0).kind = .gen) := by decide

theorem test_witness_CommandsAreHeldWhileBusy : ((busy .gen 0 0).ph = .run ∧
    controllerStep (busy .gen 0 0) = .next (busy .gen 0 0).finish) ∧
    (({ busy .next 3 10 with offered := [.command 0x02] } : State).ph = .run ∧ (busy .next 3 10).ri.toNat ≤ (busy .next 3 10).rt.toNat ∧
      ({ busy .next 3 10 with offered := [.command 0x02] } : State).offered ≠ []) := by
  refine ⟨⟨rfl, rfl⟩, rfl, by decide, ?_⟩
  exact List.cons_ne_nil _ _

/-- A NEXT from a constructed block, and a GEN from the reset state. -/
theorem test_witness_OneCommandIsRtPlusTwoControllerSteps :
    (decode (.command 0x02) = .ok .next ∧ isDraw .next = true ∧
      ({ ready keyV3 ctrV3 10 with offered := [.command 0x02] } : State).offered = .command 0x02 :: [] ∧
      ({ ready keyV3 ctrV3 10 with offered := [.command 0x02] } : State).ph = .idle ∧
      ({ ready keyV3 ctrV3 10 with offered := [.command 0x02] } : State).constructed = true ∧
      supported (ready keyV3 ctrV3 10).cfg = true) ∧
    (decode (.command 0x05) = .ok (.gen zeroKey zeroCtr 0) ∧ (offering [.command 0x05]).ph = .idle ∧
      (0 : Nat) ≤ (0 : BitVec 8).toNat) := by
  refine ⟨⟨rfl, rfl, rfl, rfl, rfl, rfl⟩, rfl, rfl, by decide⟩

theorem test_witness_ControllerRefinesTheCommandLevel : (offering [.command 0x05]).ph = .idle := rfl

/-- Both ends of the range, and a round to go. -/
theorem test_witness_ABusyControllerReachesFinish : (busy .next 0 255).ph = .run ∧
    (busy .next 0 255).ri.toNat ≤ (busy .next 0 255).rt.toNat ∧ (busy .gen 255 255).ri.toNat ≤ (busy .gen 255 255).rt.toNat ∧
    roundStepEnabled (busy .next 0 255) = true ∧
    controllerStep (busy .next 0 255) = .next (busy .next 0 255).roundStep := ⟨rfl, by decide, by decide, rfl, rfl⟩

/-- The invariant holds at reset and for a block in the middle of a GEN, and both step. -/
theorem test_witness_invariant : inv { busy .gen 0 0 with accepted := 1 } ∧
    step { busy .gen 0 0 with accepted := 1 } = .next ({ busy .gen 0 0 with accepted := 1 } : State).finish ∧
    controllerStep { busy .gen 0 0 with accepted := 1 } = .next ({ busy .gen 0 0 with accepted := 1 } : State).finish := by
  refine ⟨⟨rfl, fun _ => by decide, fun _ h => absurd rfl h, fun h => ?_⟩, rfl, rfl⟩
  exact absurd h (by decide)

theorem test_witness_NoErrorEverOnThisHardware : (ready zeroKey zeroCtr 0).cfg = Config.hardware ∧
    noError (ready zeroKey zeroCtr 0) ∧ runSteps 1 (ready zeroKey zeroCtr 0) = .next (ready zeroKey zeroCtr 0) ∧
    runController 1 (ready zeroKey zeroCtr 0) = .next (ready zeroKey zeroCtr 0) := by
  refine ⟨rfl, fun r hr => ?_, rfl, rfl⟩
  exact absurd hr (List.not_mem_nil)

theorem test_witness_AnIllConfiguredInstanceIsNeverConstructed : (onConfig 16 4 2).cfg.w ≠ 32 ∧
    (onConfig 16 4 2).constructed = false ∧ (onConfig 16 4 2).ph = .idle ∧
    runSteps 3 (onConfig 16 4 2) = .next (onConfig 16 4 2) := ⟨by decide, rfl, rfl, rfl⟩

theorem test_witness_ARunWithDutiesKeptEndsWell :
    dutiesKept (offering [.command 0x05, .command 0x0a01, .command 0x02, .keyPorts 0]).constructed
      [.command 0x05, .command 0x0a01, .command 0x02, .keyPorts 0] = true ∧
    (offering [.command 0x05, .command 0x0a01, .command 0x02, .keyPorts 0]).ph = .idle ∧
    (offering [.command 0x05, .command 0x0a01, .command 0x02, .keyPorts 0]).cfg = Config.hardware ∧
    (offering [.command 0x05, .command 0x0a01, .command 0x02, .keyPorts 0]).accepted = State.reset.responses.length :=
  ⟨rfl, rfl, rfl, rfl⟩

theorem test_witness_EveryCommandLineReadsBack : isCommand (.construct keyV3 ctrV3 255) = true ∧
    (List.replicate 16 (0 : Byte)).length = 16 := by decide

end Sys2Proof.Tests
end

section
/-! What an instruction that answers a next state has done, said once for `exec` and once for the controller's `accept`. -/

namespace Sys2Proof.Machine

open Safety

/-- `Answers s i t`: carried out in `s`, instruction `i` answers the next state `t`. One constructor per way this comes
about, with the conditions under which it does (spec/42_generator_commands.md R111 to R115, spec/30_encoding.md R85). -/
inductive Answers (s : State) : Instr → State → Prop
  | constructFails {k : Key} {c : Counter} {r : BitVec 8} {cause : Err} (herr : configError? s.cfg = some cause) :
      Answers s (.construct k c r) (s.raiseConfigurationError cause)
  | constructStores {k : Key} {c : Counter} {r : BitVec 8} (hs : supported s.cfg = true) :
      Answers s (.construct k c r) ((s.storeGenerator k c r).respond .ok 0)
  | next (hs : supported s.cfg = true) (hc : s.constructed = true) :
      Answers s .next (((s.ranRounds .next s.k s.c s.rounds).advanceCounter).respond .ok
        (pack (mix s.k s.c s.rounds.toNat)))
  | nextb (hs : supported s.cfg = true) (hc : s.constructed = true) :
      Answers s .nextb (((s.ranRounds .nextb s.k s.c s.rounds).advanceCounter).respond .ok
        (dataOfBytes (bytesOf (counterWords (mix s.k s.c s.rounds.toNat)))))
  | peek (hs : supported s.cfg = true) (hc : s.constructed = true) :
      Answers s .peek (s.respond .ok (pack s.c))
  | gen {k : Key} {c : Counter} {r : BitVec 8} (hs : supported s.cfg = true) :
      Answers s (.gen k c r) ((s.ranRounds .gen k c r).respond .ok (pack (mix k c r.toNat)))
  | round {c : Counter} {k : Key} (hs : supported s.cfg = true) :
      Answers s (.round c k) (s.observe (.roundOut (pack (roundFn c k))))
  | keyadv {k : Key} (hs : supported s.cfg = true) :
      Answers s (.keyadv k) (s.observe (.keyOut (packKey (Machine.keyadv k))))
  | ctrinc {c : Counter} (hs : supported s.cfg = true) :
      Answers s (.ctrinc c) (s.observe (.counterOut (pack (Machine.ctrinc c))))

theorem supported_eq_false_of_configError? {cfg : Config} {cause : Err} (h : configError? cfg = some cause) :
    supported cfg = false := by
  simp [supported, h]

theorem answers_of_execConstruct {k : Key} {c : Counter} {r : BitVec 8} {s t : State}
    (h : execConstruct k c r s = .next t) : Answers s (.construct k c r) t := by
  unfold execConstruct at h
  split at h
  · cases h; exact .constructFails ‹_›
  · obtain ⟨hs, ht⟩ := requireDatapath_eq_next h
    cases ht; exact .constructStores hs

/-- Every next state of `exec` comes about in one of the ways of `Answers`. -/
theorem answers_of_exec {i : Instr} {s t : State} (h : exec i s = .next t) : Answers s i t := by
  cases i with
  | construct k c r => exact answers_of_execConstruct h
  | next => obtain ⟨hs, hc, ht⟩ := readGenerator_eq_next h; cases ht; exact .next hs hc
  | nextb => obtain ⟨hs, hc, ht⟩ := readGenerator_eq_next h; cases ht; exact .nextb hs hc
  | peek => obtain ⟨hs, hc, ht⟩ := readGenerator_eq_next h; cases ht; exact .peek hs hc
  | gen k c r => obtain ⟨hs, ht⟩ := requireDatapath_eq_next h; cases ht; exact .gen hs
  | round c k => obtain ⟨hs, ht⟩ := requireDatapath_eq_next h; cases ht; exact .round hs
  | keyadv k => obtain ⟨hs, ht⟩ := requireDatapath_eq_next h; cases ht; exact .keyadv hs
  | ctrinc c => obtain ⟨hs, ht⟩ := requireDatapath_eq_next h; cases ht; exact .ctrinc hs

/-- `exec` answers each of the states `Answers` lists. -/
theorem exec_of_answers {i : Instr} {s t : State} (h : Answers s i t) : exec i s = .next t := by
  cases h with
  | constructFails herr => simp [exec, execConstruct, herr]
  | constructStores hs => simp [exec, execConstruct, configError?_of_supported hs, hs]
  | next hs hc => exact readGenerator_of_constructed _ hs hc
  | nextb hs hc => exact readGenerator_of_constructed _ hs hc
  | peek hs hc => exact readGenerator_of_constructed _ hs hc
  | gen hs => exact requireDatapath_of_supported _ hs
  | round hs => exact requireDatapath_of_supported _ hs
  | keyadv hs => exact requireDatapath_of_supported _ hs
  | ctrinc hs => exact requireDatapath_of_supported _ hs

/-- ACCEPT carries an instruction out whole, as `exec` does, or loads the scratch registers: with the stored generator for
NEXT and NEXTB, with the operands for GEN (R141). -/
theorem accept_cases {i : Instr} {s t : State} (h : accept i s = .next t) :
    (isDraw i = false ∧ (∀ k c r, i ≠ .gen k c r) ∧ exec i s = .next t) ∨
    (supported s.cfg = true ∧ s.constructed = true ∧
      (i = .next ∧ t = s.loadScratch .next s.k s.c s.rounds ∨ i = .nextb ∧ t = s.loadScratch .nextb s.k s.c s.rounds)) ∨
    (∃ k c r, i = .gen k c r ∧ supported s.cfg = true ∧ t = s.loadScratch .gen k c r) := by
  cases i with
  | next =>
    obtain ⟨hs, hc, ht⟩ := readGenerator_eq_next h
    cases ht; exact .inr (.inl ⟨hs, hc, .inl ⟨rfl, rfl⟩⟩)
  | nextb =>
    obtain ⟨hs, hc, ht⟩ := readGenerator_eq_next h
    cases ht; exact .inr (.inl ⟨hs, hc, .inr ⟨rfl, rfl⟩⟩)
  | gen k c r =>
    obtain ⟨hs, ht⟩ := requireDatapath_eq_next h
    cases ht; exact .inr (.inr ⟨k, c, r, rfl, hs, rfl⟩)
  | construct | peek | round | keyadv | ctrinc => exact .inl ⟨rfl, nofun, h⟩

end Sys2Proof.Machine
end

section
/-! `CONSTRUCTED` (spec/10_state.md R29): which operations set it, and that none clears it. -/

namespace Sys2Proof.Proofs

open Machine Safety

theorem constructed_after_exec_iff {i : Instr} {s t : State} (h : exec i s = .next t) :
    t.constructed = true ↔ s.constructed = true ∨ (isConstruct i = true ∧ supported s.cfg = true) := by
  cases answers_of_exec h with
  | constructFails herr => simp [supported_eq_false_of_configError? herr]
  | constructStores hs => simp [isConstruct, hs]
  | next | nextb | peek | gen | round | keyadv | ctrinc => simp [isConstruct]

theorem constructed_of_needsGenerator {i : Instr} {s t : State} (hn : needsGenerator i = true)
    (h : exec i s = .next t) : s.constructed = true := by
  cases answers_of_exec h with
  | next _ hc | nextb _ hc | peek _ hc => exact hc
  | constructFails | constructStores | gen | round | keyadv | ctrinc => cases hn

theorem runStep_keeps_constructed {s t : State} (h : runStep s = .next t) : t.constructed = s.constructed := by
  obtain ⟨-, -, rfl⟩ | ⟨-, -, rfl⟩ := runStep_cases h
  · exact s.roundStep_constructed
  · exact s.finish_constructed

theorem exec_keeps_constructed {i : Instr} {s t : State} (h : exec i s = .next t) (hc : s.constructed = true) :
    t.constructed = true :=
  (constructed_after_exec_iff h).2 (.inl hc)

theorem accept_keeps_constructed {i : Instr} {s t : State} (h : accept i s = .next t) (hc : s.constructed = true) :
    t.constructed = true := by
  obtain ⟨-, -, h⟩ | ⟨-, -, ⟨-, rfl⟩ | ⟨-, rfl⟩⟩ | ⟨k, c, r, -, -, rfl⟩ := accept_cases h
  · exact exec_keeps_constructed h hc
  · exact hc
  · exact hc
  · exact hc

theorem step_keeps_constructed {s t : State} (h : step s = .next t) (hc : s.constructed = true) :
    t.constructed = true := by
  obtain ⟨-, -, rfl⟩ | ⟨o, rest, i, -, -, -, h⟩ | ⟨-, h⟩ := step_cases h
  · exact hc
  · exact exec_keeps_constructed h hc
  · rw [runStep_keeps_constructed h, hc]

theorem controllerStep_keeps_constructed {s t : State} (h : controllerStep s = .next t) (hc : s.constructed = true) :
    t.constructed = true := by
  obtain ⟨-, -, rfl⟩ | ⟨o, rest, i, -, -, -, h⟩ | ⟨-, h⟩ := controllerStep_cases h
  · exact hc
  · exact accept_keeps_constructed h hc
  · rw [runStep_keeps_constructed h, hc]

/-- Settles O42: by inversion of `exec`, of `accept` and of the two machines' steps. -/
theorem constructedIsSetByConstructAndClearedByResetOnly :
    Obligations.ConstructedIsSetByConstructAndClearedByResetOnly :=
  ⟨rfl, fun _ => rfl,
    fun _ _ _ h => constructed_after_exec_iff h,
    fun _ _ h hc => step_keeps_constructed h hc,
    fun _ _ h hc => controllerStep_keeps_constructed h hc,
    fun s hc => s.generator?_of_not_constructed hc,
    fun _ _ _ hn h => constructed_of_needsGenerator hn h,
    fun _ _ _ _ hs => ⟨⟨_, exec_of_answers (.constructStores hs)⟩, ⟨_, exec_of_answers (.gen hs)⟩⟩⟩

end Sys2Proof.Proofs
end

section
/-! The stored counter `C` (spec/10_state.md R22): who writes it, who reads it. -/

namespace Sys2Proof.Proofs

open Machine Safety

theorem exec_construct_writes_counter {k : Key} {c : Counter} {r : BitVec 8} {s t : State}
    (hs : supported s.cfg = true) (h : exec (.construct k c r) s = .next t) : t.c = c := by
  cases answers_of_exec h with
  | constructFails herr => simp [supported_eq_false_of_configError? herr] at hs
  | constructStores => simp

theorem exec_draw_advances_counter {i : Instr} {s t : State} (h : exec i s = .next t) (hd : isDraw i = true) :
    t.c = ctrinc s.c := by
  cases answers_of_exec h with
  | next | nextb => simp
  | constructFails | constructStores | peek | gen | round | keyadv | ctrinc => cases hd

theorem exec_keeps_counter {i : Instr} {s t : State} (h : exec i s = .next t) (hd : isDraw i = false)
    (hk : isConstruct i = false) : t.c = s.c := by
  cases answers_of_exec h with
  | constructFails | constructStores => cases hk
  | next | nextb => cases hd
  | peek | gen | round | keyadv | ctrinc => simp

theorem accept_draw_copies_counter {i : Instr} {s t : State} (h : accept i s = .next t) (hd : isDraw i = true) :
    t.sc = s.c ∧ t.c = s.c := by
  obtain ⟨hnot, -, -⟩ | ⟨-, -, ⟨-, rfl⟩ | ⟨-, rfl⟩⟩ | ⟨k, c, r, rfl, -, -⟩ := accept_cases h
  · simp [hnot] at hd
  · simp
  · simp
  · cases hd

theorem exec_peek_answers_counter {s t : State} (h : exec .peek s = .next t) :
    t = { s with responses := s.responses ++ [⟨.ok, pack s.c⟩] } := by
  cases answers_of_exec h with
  | peek => rfl

/-- With another stored counter GEN answers the same, and leaves that counter. -/
theorem exec_gen_ignores_counter {k : Key} {c : Counter} {r : BitVec 8} {s t : State} (x : Counter)
    (h : exec (.gen k c r) s = .next t) : exec (.gen k c r) { s with c := x } = .next { t with c := x } := by
  cases answers_of_exec h with
  | gen hs => exact exec_of_answers (.gen hs)

/-- Settles O43: by inversion of `exec` and of `accept`, instruction by instruction. -/
theorem counterIsWrittenByConstructAndDrawsOnly : Obligations.CounterIsWrittenByConstructAndDrawsOnly :=
  ⟨fun _ _ _ _ _ hs h => exec_construct_writes_counter hs h,
    fun _ _ _ h hd => exec_draw_advances_counter h hd,
    fun _ _ _ h hd hk => exec_keeps_counter h hd hk,
    fun _ _ _ h hd => accept_draw_copies_counter h hd,
    fun _ _ h => exec_peek_answers_counter h,
    fun _ _ x _ _ _ h => exec_gen_ignores_counter x h⟩

end Sys2Proof.Proofs
end

section
/-! Bytes (spec/20_memory.md R52 to R55, spec/30_encoding.md R82): `word` and `bytes` are inverse to each other, for one
word and for an array of words, and a `data` field gives back the sixteen bytes put into it. -/

namespace Sys2Proof.Machine

theorem toNat_word (b0 b1 b2 b3 : Byte) :
    (word b0 b1 b2 b3).toNat = b0.toNat + 2 ^ 8 * b1.toNat + 2 ^ 16 * b2.toNat + 2 ^ 24 * b3.toNat := by
  rw [word, BitVec.toNat_ofNat]
  omega

@[simp] theorem wordsOf_bytes_append (w : Word) (bs : List Byte) : wordsOf (bytes w ++ bs) = w :: wordsOf bs := by
  have hw : word (w.extractLsb' 0 8) (w.extractLsb' 8 8) (w.extractLsb' 16 8) (w.extractLsb' 24 8) = w := by
    apply BitVec.eq_of_toNat_eq
    simp only [toNat_word, BitVec.extractLsb'_toNat, Nat.shiftRight_eq_div_pow]
    omega
  simp [bytes, wordsOf, hw]

@[simp] theorem bytes_word (b0 b1 b2 b3 : Byte) : bytes (word b0 b1 b2 b3) = [b0, b1, b2, b3] := by
  simp only [bytes, List.cons.injEq, and_true, ← BitVec.toNat_inj, BitVec.extractLsb'_toNat,
    Nat.shiftRight_eq_div_pow, toNat_word]
  omega

@[simp] theorem length_bytesOf (ws : List Word) : (bytesOf ws).length = 4 * ws.length := by
  induction ws with
  | nil => rfl
  | cons w ws ih => simp only [bytesOf, bytes, List.length_append, List.length_cons, List.length_nil, ih]; omega

@[simp] theorem wordsOf_bytesOf (ws : List Word) : wordsOf (bytesOf ws) = ws := by
  induction ws with
  | nil => rfl
  | cons w ws ih => rw [bytesOf, wordsOf_bytes_append, ih]

/-- Digit `j` to the base 256 of a byte sequence's value is byte `j`. -/
theorem bytesVal_div_mod (bs : List Byte) (j : Nat) (h : j < bs.length) :
    bytesVal bs / 2 ^ (8 * j) % 2 ^ 8 = bs[j].toNat := by
  induction bs generalizing j with
  | nil => cases h
  | cons b bs ih =>
    cases j with
    | zero => simp only [bytesVal, List.getElem_cons_zero]; omega
    | succ j =>
      have hrest : bytesVal (b :: bs) / 2 ^ 8 = bytesVal bs := by rw [bytesVal]; omega
      rw [Nat.mul_succ, Nat.add_comm, Nat.pow_add, ← Nat.div_div_eq_div_mul, hrest, List.getElem_cons_succ]
      exact ih j (Nat.lt_of_succ_lt_succ h)

theorem dataByte_dataOfBytes (bs : List Byte) (j : Nat) (hj : j < 16) (h : j < bs.length) :
    dataByte (dataOfBytes bs) j = bs[j] := by
  apply BitVec.eq_of_toNat_eq
  rw [dataByte, BitVec.extractLsb'_toNat, Nat.shiftRight_eq_div_pow, dataOfBytes, BitVec.toNat_ofNat,
    ← bytesVal_div_mod bs j h]
  have hsplit : 128 = 8 * j + (8 + (120 - 8 * j)) := by omega
  rw [hsplit, Nat.pow_add, Nat.mod_mul_right_div_self, Nat.pow_add, Nat.mod_mul_right_mod]

theorem bytesOfData_dataOfBytes (bs : List Byte) (h : bs.length = 16) : bytesOfData (dataOfBytes bs) = bs := by
  apply List.ext_getElem
  · simp [bytesOfData, h]
  · intro j _ hj
    simpa [bytesOfData] using dataByte_dataOfBytes bs j (h ▸ hj) hj

/-- R55: the sixteen bytes of an output, taken out of a `data` field, give back its four words. -/
theorem wordsOf_bytesOfData_dataOfBytes (c : Counter) :
    wordsOf (bytesOfData (dataOfBytes (bytesOf (counterWords c)))) = counterWords c := by
  rw [bytesOfData_dataOfBytes _ (length_bytesOf (counterWords c)), wordsOf_bytesOf]

end Sys2Proof.Machine

namespace Sys2Proof.Proofs

open Machine

/-- Settles O22: by the round trips of `bytes` and `word`, and of sixteen bytes through a `data` field. -/
theorem byteEncodingLosesNothing : Obligations.ByteEncodingLosesNothing :=
  ⟨fun w => ⟨rfl, wordsOf_bytes_append w []⟩,
    fun b0 b1 b2 b3 => ⟨bytes_word b0 b1 b2 b3, toNat_word b0 b1 b2 b3⟩,
    wordsOf_bytesOf,
    fun _ hs hc => ⟨_, _, exec_of_answers (.nextb hs hc), rfl, wordsOf_bytesOfData_dataOfBytes _⟩⟩

end Sys2Proof.Proofs
end

section
/-! The responses an instruction appends (spec/30_encoding.md R80, R81; spec/42_generator_commands.md R120): how many, and
with which `err`. -/

namespace Sys2Proof.Proofs

open Machine Safety

theorem configError?_eq_some_iff (cfg : Config) (cause : Err) : configError? cfg = some cause ↔
    (cause = .width ∧ cfg.w ≠ 32) ∨ (cause = .length ∧ cfg.w = 32 ∧ 2 * cfg.kn ≠ cfg.n) := by
  by_cases hw : cfg.w = 32
  · by_cases hl : 2 * cfg.kn = cfg.n
    · simp [configError?, hw, hl]
    · simp [configError?, hw, hl, eq_comm]
  · simp [configError?, hw, eq_comm]

/-- A command appends one response: ok, or CONSTRUCT's ConfigurationError. -/
theorem exec_command_appends_one {i : Instr} {s t : State} (h : exec i s = .next t) (hi : isCommand i = true) :
    ∃ r, t.responses = s.responses ++ [r] ∧
      (r.err = .ok ∨ (isConstruct i = true ∧ configError? s.cfg = some r.err)) := by
  cases answers_of_exec h with
  | constructFails herr => exact ⟨_, rfl, .inr ⟨rfl, herr⟩⟩
  | constructStores | next | nextb | peek | gen => exact ⟨_, rfl, .inl rfl⟩
  | round | keyadv | ctrinc => cases hi

theorem exec_leaf_keeps_responses {i : Instr} {s t : State} (h : exec i s = .next t) (hi : isCommand i = false) :
    t.responses = s.responses := by
  cases answers_of_exec h with
  | constructFails | constructStores | next | nextb | peek | gen => cases hi
  | round | keyadv | ctrinc => rfl

theorem exec_keeps_accepted {i : Instr} {s t : State} (h : exec i s = .next t) : t.accepted = s.accepted := by
  cases answers_of_exec h with
  | constructFails | constructStores | next | nextb | peek | gen | round | keyadv | ctrinc => rfl

/-- Any response but ok that an instruction appends is CONSTRUCT's ConfigurationError. -/
theorem exec_appended_error {i : Instr} {s t : State} {rs : List Response} {r : Response} (h : exec i s = .next t)
    (happ : t.responses = s.responses ++ rs) (hr : r ∈ rs) (herr : r.err ≠ .ok) :
    isConstruct i = true ∧ configError? s.cfg = some r.err := by
  cases hi : isCommand i with
  | false =>
    have hrs : rs = [] := by simpa [exec_leaf_keeps_responses h hi] using happ
    simp [hrs] at hr
  | true =>
    obtain ⟨a, ha, hcause⟩ := exec_command_appends_one h hi
    have hrs : rs = [a] := List.append_cancel_left (happ.symm.trans ha)
    obtain rfl : r = a := by simpa [hrs] using hr
    exact hcause.resolve_left herr

theorem errCode_ne_three (e : Err) : errCode e ≠ 0b11 := by
  cases e <;> decide

/-- Settles O25: by what each instruction appends, and the two causes of `configError?`. -/
theorem onlyConstructReportsAnError : Obligations.OnlyConstructReportsAnError := by
  refine ⟨⟨rfl, rfl, rfl, errCode_ne_three⟩, fun i s t rs h happ r hr herr => ?_⟩
  obtain ⟨hi, hcause⟩ := exec_appended_error h happ hr herr
  have hcfg : s.cfg ≠ Config.hardware := by
    intro hhw
    rw [hhw] at hcause
    cases hcause
  exact ⟨hi, hcfg, (configError?_eq_some_iff s.cfg r.err).1 hcause⟩

/-- A step of an idle block adds as many responses as it takes commands. -/
theorem step_appends_per_command {s t : State} (hp : s.ph = .idle) (h : step s = .next t) :
    ∃ rs, t.responses = s.responses ++ rs ∧ t.accepted = s.accepted + rs.length := by
  obtain ⟨-, -, rfl⟩ | ⟨o, rest, i, -, -, hd, h⟩ | ⟨hrun, -⟩ := step_cases h
  · exact ⟨[], (List.append_nil _).symm, rfl⟩
  · have hacc : t.accepted = s.accepted + if isCommand i then 1 else 0 := by
      rw [← commandCount_of_decode hd]
      exact exec_keeps_accepted h
    cases hi : isCommand i with
    | false => exact ⟨[], by simp [exec_leaf_keeps_responses h hi], by simp [hacc, hi]⟩
    | true =>
      obtain ⟨r, hr, -⟩ := exec_command_appends_one h hi
      exact ⟨[r], hr, by simp [hacc, hi]⟩
  · simp [hp] at hrun

/-- Settles O40: by what each instruction appends, with `exec` and with `step`. -/
theorem oneResponsePerCommandInOrder : Obligations.OneResponsePerCommandInOrder := by
  refine ⟨fun i s t h => ⟨fun hi => ?_, exec_leaf_keeps_responses h⟩, fun r => ⟨?_, ?_⟩,
    fun _ _ => step_appends_per_command⟩
  · obtain ⟨r, hr, -⟩ := exec_command_appends_one h hi
    exact ⟨r, hr⟩
  · exact BitVec.extractLsb'_append_eq_left
  · exact BitVec.extractLsb'_append_eq_right

end Sys2Proof.Proofs
end

section
/-! The decoder (spec/30_encoding.md R73 to R77, R86): where each field stands, one equation per operation code, and which
words are invalid. -/

namespace Sys2Proof

open Machine

/-- A field of a field is the field at the sum of the two positions. -/
theorem extractLsb'_extractLsb' {n w len : Nat} (x : BitVec n) (i j : Nat) (h : j + len ≤ w) :
    (x.extractLsb' i w).extractLsb' j len = x.extractLsb' (i + j) len := by
  apply BitVec.eq_of_getLsbD_eq
  intro b hb
  simp [hb, show j + b < w by omega, Nat.add_assoc]

/-- R74: the key's words are bits 47:16 and 79:48. -/
theorem keyField_eq (cw : BitVec 208) : keyField cw = ⟨cw.extractLsb' 16 32, cw.extractLsb' 48 32⟩ := by
  simp [keyField, unpackKey, extractLsb'_extractLsb']

/-- R75: the counter's words are bits 111:80, 143:112, 175:144 and 207:176. -/
theorem ctrField_eq (cw : BitVec 208) : ctrField cw =
    ⟨cw.extractLsb' 80 32, cw.extractLsb' 112 32, cw.extractLsb' 144 32, cw.extractLsb' 176 32⟩ := by
  simp [ctrField, unpack, extractLsb'_extractLsb']

theorem opField_eq_of_lowByte {cw : BitVec 208} {b : BitVec 8} (h : cw.extractLsb' 0 8 = b) :
    opField cw = b.extractLsb' 0 3 := by
  rw [← h, BitVec.extractLsb'_extractLsb'_of_le (by decide), opField]

theorem rsvField_eq_of_lowByte {cw : BitVec 208} {b : BitVec 8} (h : cw.extractLsb' 0 8 = b) :
    rsvField cw = b.extractLsb' 3 5 := by
  rw [← h, BitVec.extractLsb'_extractLsb'_of_le (by decide), rsvField]

section
variable {cw : BitVec 208}

theorem decodeCommand_of_rsv_ne (hr : rsvField cw ≠ 0#5) : decodeCommand cw = .error .reservedNotZero := by
  simp [decodeCommand, hr]

variable (hr : rsvField cw = 0#5)
include hr

theorem decodeCommand_of_op_one (ho : opField cw = 1) :
    decodeCommand cw = .ok (.construct (keyField cw) (ctrField cw) (roundsField cw)) := by simp [decodeCommand, hr, ho]

theorem decodeCommand_of_op_two (ho : opField cw = 2) : decodeCommand cw = .ok .next := by simp [decodeCommand, hr, ho]

theorem decodeCommand_of_op_three (ho : opField cw = 3) : decodeCommand cw = .ok .nextb := by simp [decodeCommand, hr, ho]

theorem decodeCommand_of_op_four (ho : opField cw = 4) : decodeCommand cw = .ok .peek := by simp [decodeCommand, hr, ho]

theorem decodeCommand_of_op_five (ho : opField cw = 5) :
    decodeCommand cw = .ok (.gen (keyField cw) (ctrField cw) (roundsField cw)) := by simp [decodeCommand, hr, ho]

theorem decodeCommand_of_op_unassigned (ho : opField cw = 0 ∨ opField cw = 6 ∨ opField cw = 7) :
    decodeCommand cw = .error (.unassignedOp (opField cw)) := by
  obtain ho | ho | ho := ho <;> simp [decodeCommand, hr, ho]

end

/-- The eight operation codes: the three unassigned ones first, then the five commands (R76). -/
theorem op_cases (op : BitVec 3) :
    (op = 0 ∨ op = 6 ∨ op = 7) ∨ op = 1 ∨ op = 2 ∨ op = 3 ∨ op = 4 ∨ op = 5 := by
  revert op; decide

/-- R86: which command words are invalid. -/
theorem decodeCommand_eq_error_iff (cw : BitVec 208) : (∃ why, decodeCommand cw = .error why) ↔
    rsvField cw ≠ 0#5 ∨ opField cw = 0 ∨ opField cw = 6 ∨ opField cw = 7 := by
  by_cases hr : rsvField cw = 0#5
  · obtain ho | ho | ho | ho | ho | ho := op_cases (opField cw)
    · exact iff_of_true ⟨_, decodeCommand_of_op_unassigned hr ho⟩ (.inr ho)
    · simp [decodeCommand_of_op_one hr ho, hr, ho]
    · simp [decodeCommand_of_op_two hr ho, hr, ho]
    · simp [decodeCommand_of_op_three hr ho, hr, ho]
    · simp [decodeCommand_of_op_four hr ho, hr, ho]
    · simp [decodeCommand_of_op_five hr ho, hr, ho]
  · exact iff_of_true ⟨_, decodeCommand_of_rsv_ne hr⟩ (.inl hr)

end Sys2Proof

namespace Sys2Proof.Proofs

open Machine

/-- Settles O5: by the decoder's equation for each operation code and the places of the key's and the counter's words. -/
theorem decodeReadsEachFieldAtItsPosition : Obligations.DecodeReadsEachFieldAtItsPosition := by
  refine fun cw => ⟨decodeCommand_eq_error_iff cw, fun hr => ⟨fun ho => ?_, decodeCommand_of_op_two hr,
    decodeCommand_of_op_three hr, decodeCommand_of_op_four hr, fun ho => ?_⟩⟩
  · rw [decodeCommand_of_op_one hr ho, keyField_eq, ctrField_eq, roundsField]
  · rw [decodeCommand_of_op_five hr ho, keyField_eq, ctrField_eq, roundsField]

/-- Settles O6: the low byte alone gives `rsv` and `op`, and the canonical words are evaluated. -/
theorem operandFieldsOfBareCommandsAreIgnored : Obligations.OperandFieldsOfBareCommandsAreIgnored :=
  ⟨fun _ =>
    ⟨fun h => decodeCommand_of_op_two (rsvField_eq_of_lowByte h) (opField_eq_of_lowByte h),
      fun h => decodeCommand_of_op_three (rsvField_eq_of_lowByte h) (opField_eq_of_lowByte h),
      fun h => decodeCommand_of_op_four (rsvField_eq_of_lowByte h) (opField_eq_of_lowByte h)⟩,
    rfl, rfl, rfl⟩

end Sys2Proof.Proofs
end

section
/-! The round function (spec/40_round_function.md R90): its multipliers as numbers, and its four output words. -/

namespace Sys2Proof.Machine

@[simp] theorem toNat_M0 : M0.toNat = 0xD2511F53 := rfl

@[simp] theorem toNat_M1 : M1.toNat = 0xCD9E8D57 := rfl

theorem mulhilo_fst (m a : Word) : (mulhilo m a).1 = BitVec.ofNat 32 (m.toNat * a.toNat / 2 ^ 32) := rfl

theorem mulhilo_snd (m a : Word) : (mulhilo m a).2 = BitVec.ofNat 32 (m.toNat * a.toNat % 2 ^ 32) := rfl

end Sys2Proof.Machine

namespace Sys2Proof.Proofs

open Machine

/-- Settles O10: each output word is built from a half of an exact product with the multiplier's value, R90's crossing of
the products being `roundFn`'s own. -/
theorem roundComputesTheFourWords : Obligations.RoundComputesTheFourWords := by
  intro c k
  refine ⟨?w0, ?w1, ?w2, ?w3⟩
  case w0 => simp only [roundFn, mulhilo_fst, toNat_M1]
  case w1 => simp only [roundFn, mulhilo_snd, toNat_M1]
  case w2 => simp only [roundFn, mulhilo_fst, toNat_M0]
  case w3 => simp only [roundFn, mulhilo_snd, toNat_M0]

end Sys2Proof.Proofs
end

section
/-! The key schedule (spec/41_key_schedule.md R100): its addends as numbers, and the sum that drops its carry. -/

namespace Sys2Proof.Machine

@[simp] theorem toNat_KA0 : KA0.toNat = 0x9E3779B9 := rfl

@[simp] theorem toNat_KA1 : KA1.toNat = 0xBB67AE85 := rfl

@[simp] theorem toNat_add32 (a b : Word) : (add32 a b).toNat = (b.toNat + a.toNat) % 2 ^ 32 :=
  BitVec.toNat_ofNat ..

@[simp] theorem keyadv_w0 (k : Key) : (keyadv k).w0 = add32 k.w0 KA0 := rfl

@[simp] theorem keyadv_w1 (k : Key) : (keyadv k).w1 = add32 k.w1 KA1 := rfl

end Sys2Proof.Machine

namespace Sys2Proof.Proofs

open Machine

/-- Settles O14: each word of the advanced key is the wrapped sum of the same-numbered word and its addend's value. -/
theorem keyScheduleAddsTheConstants : Obligations.KeyScheduleAddsTheConstants := by
  intro k
  refine ⟨?w0, ?w1⟩
  case w0 => rw [keyadv_w0, toNat_add32, toNat_KA0]
  case w1 => rw [keyadv_w1, toNat_add32, toNat_KA1]

end Sys2Proof.Proofs
end

section
/-! CONSTRUCT and the configuration (spec/00_scope.md R10, spec/42_generator_commands.md R111, spec/60_exceptions.md
R153, R154, R160): when each of its three ends comes about, and that the generator it replaces leaves no trace. -/

namespace Sys2Proof.Machine

theorem configError?_eq_none_iff (cfg : Config) : configError? cfg = none ↔ cfg.w = 32 ∧ 2 * cfg.kn = cfg.n := by
  by_cases hw : cfg.w = 32
  · by_cases hl : 2 * cfg.kn = cfg.n <;> simp [configError?, hw, hl]
  · simp [configError?, hw]

theorem supported_eq_true_iff (cfg : Config) :
    supported cfg = true ↔ (cfg.w = 32 ∧ 2 * cfg.kn = cfg.n) ∧ cfg.n = 4 := by
  simp [supported, configError?_eq_none_iff]

theorem validWithoutDatapath_eq_true_iff (cfg : Config) :
    validWithoutDatapath cfg = true ↔ (cfg.w = 32 ∧ 2 * cfg.kn = cfg.n) ∧ cfg.n ≠ 4 := by
  simp [validWithoutDatapath, configError?_eq_none_iff]

theorem exec_construct_refused {s : State} {k : Key} {c : Counter} {r : BitVec 8} (herr : configError? s.cfg = none)
    (hs : supported s.cfg = false) : exec (.construct k c r) s = .refused .unsupportedConfiguration := by
  simp [exec, execConstruct, herr, hs]

end Sys2Proof.Machine

namespace Sys2Proof.Proofs

open Machine

/-- Settles O24: each clause's conditions pick one end of CONSTRUCT. -/
theorem constructChecksThenStores : Obligations.ConstructChecksThenStores := by
  intro s k c r
  refine ⟨fun hw => ?width, fun hw hl => ?length, fun hw hl hn => ?refused, fun hw hl hn => ?stores⟩
  case width => exact exec_of_answers (.constructFails ((configError?_eq_some_iff s.cfg _).2 (.inl ⟨rfl, hw⟩)))
  case length => exact exec_of_answers (.constructFails ((configError?_eq_some_iff s.cfg _).2 (.inr ⟨rfl, hw, hl⟩)))
  case refused =>
    have hv : validWithoutDatapath s.cfg = true := (validWithoutDatapath_eq_true_iff s.cfg).2 ⟨⟨hw, hl⟩, hn⟩
    exact exec_construct_refused ((configError?_eq_none_iff s.cfg).2 ⟨hw, hl⟩)
      (supported_eq_false_of_validWithoutDatapath hv)
  case stores => exact exec_of_answers (.constructStores ((supported_eq_true_iff s.cfg).2 ⟨⟨hw, hl⟩, hn⟩))

/-- CONSTRUCT answers the same, or is refused in the same way, from any two states of one configuration. -/
theorem exec_construct_same_of_cfg_eq (k : Key) (c : Counter) (r : BitVec 8) {s s' : State} (hcfg : s'.cfg = s.cfg) :
    (∃ t u a, exec (.construct k c r) s = .next t ∧ exec (.construct k c r) s' = .next u ∧
      t.responses = s.responses ++ [a] ∧ u.responses = s'.responses ++ [a]) ∨
    (∃ q, exec (.construct k c r) s = .refused q ∧ exec (.construct k c r) s' = .refused q) := by
  cases herr : configError? s.cfg with
  | some cause =>
    exact .inl ⟨_, _, ⟨cause, 0⟩, exec_of_answers (.constructFails herr),
      exec_of_answers (.constructFails (hcfg ▸ herr)), rfl, rfl⟩
  | none =>
    cases hs : supported s.cfg with
    | true =>
      exact .inl ⟨_, _, ⟨.ok, 0⟩, exec_of_answers (.constructStores hs),
        exec_of_answers (.constructStores (hcfg ▸ hs)), rfl, rfl⟩
    | false =>
      exact .inr ⟨_, exec_construct_refused herr hs, exec_construct_refused (hcfg ▸ herr) (hcfg ▸ hs)⟩

/-- Settles O41: reset keeps the configuration, which alone decides how CONSTRUCT ends. -/
theorem reconstructionForgetsTheOldGenerator : Obligations.ReconstructionForgetsTheOldGenerator :=
  ⟨fun s _ _ _ hs => ⟨_, _, exec_of_answers (.constructStores hs),
      exec_of_answers (s := s.applyReset) (.constructStores hs), rfl, rfl, rfl, rfl⟩,
    fun s k c r => exec_construct_same_of_cfg_eq k c r s.applyReset_cfg⟩

end Sys2Proof.Proofs
end

section
/-! NEXT, NEXTB, PEEK and GEN where they complete and where they stop (spec/42_generator_commands.md R112 to R116, R119,
R121). -/

namespace Sys2Proof.Machine

/-- R52, R53: byte `j` of word `i` stands at place `4*i+j` of the byte encoding. -/
theorem getElem?_bytesOf (ws : List Word) (i j : Nat) (hi : i < ws.length) (hj : j < 4) :
    (bytesOf ws)[4 * i + j]? = some ((ws.getD i 0).extractLsb' (8 * j) 8) := by
  induction ws generalizing i with
  | nil => cases hi
  | cons w ws ih =>
    cases i with
    | zero => interval_cases j <;> rfl
    | succ i =>
      have hlen : (bytes w).length = 4 := rfl
      have hplace : 4 * (i + 1) + j - (bytes w).length = 4 * i + j := by omega
      rw [bytesOf, List.getElem?_append_right (by omega), hplace, List.getD_cons_succ]
      exact ih i (Nat.lt_of_succ_lt_succ hi)

/-- R113: where the bytes of the four output words stand in the `data` field. -/
theorem extractLsb'_dataOfBytes_bytesOf (c : Counter) (i j : Nat) (hi : i < 4) (hj : j < 4) :
    (dataOfBytes (bytesOf (counterWords c))).extractLsb' (8 * (4 * i + j)) 8 =
      ((counterWords c).getD i 0).extractLsb' (8 * j) 8 := by
  obtain ⟨hlt, hbyte⟩ := List.getElem?_eq_some_iff.1 (getElem?_bytesOf (counterWords c) i j hi hj)
  rw [← hbyte]
  exact dataByte_dataOfBytes _ _ (by omega) hlt

end Sys2Proof.Machine

namespace Sys2Proof.Proofs

open Machine Safety

/-- Settles O27: by the place of each output byte in `data`. -/
theorem nextbAnswersTheBytesAndAdvances : Obligations.NextbAnswersTheBytesAndAdvances :=
  fun _ hs hc => ⟨_, _, exec_of_answers (.nextb hs hc), rfl, extractLsb'_dataOfBytes_bytesOf _,
    rfl, rfl, rfl, hc, rfl, rfl, rfl, rfl⟩

/-- Settles O26: from the state NEXT answers, field by field. -/
theorem nextAnswersTheMixAndAdvances : Obligations.NextAnswersTheMixAndAdvances :=
  fun _ hs hc => ⟨_, exec_of_answers (.next hs hc), rfl, rfl, rfl, rfl, hc, rfl, rfl, rfl, rfl⟩

/-- Settles O28: the one state PEEK answers. -/
theorem peekAnswersTheCounter : Obligations.PeekAnswersTheCounter :=
  fun _ hs hc => exec_of_answers (.peek hs hc)

/-- Settles O29: from the state GEN answers, field by field; an invalid configuration is none the datapath exists for. -/
theorem genAnswersTheMixOfItsOperands : Obligations.GenAnswersTheMixOfItsOperands := by
  refine fun s k c r => ⟨fun hs => ?_, fun hbad => ?_⟩
  · exact ⟨_, exec_of_answers (.gen hs), rfl, rfl, rfl, rfl, rfl, rfl, rfl, rfl, rfl⟩
  · have hs : supported s.cfg = false := by
      rw [Bool.eq_false_iff, ne_eq, supported_eq_true_iff]
      omega
    exact requireDatapath_of_not_supported _ hs

/-- Settles O31: the configurations of the statement are those where `readGenerator` looks at the generator. -/
theorem drawsAndPeekFaultBeforeConstruct : Obligations.DrawsAndPeekFaultBeforeConstruct := by
  intro s hc hcfg
  have hv : validWithoutDatapath s.cfg = false := by
    rw [Bool.eq_false_iff, ne_eq, validWithoutDatapath_eq_true_iff]
    omega
  have hfault := fun body => readGenerator_of_not_constructed body hv hc
  exact ⟨⟨_, hfault _⟩, ⟨_, hfault _⟩, ⟨_, hfault _⟩⟩

/-- R116: on a constructed block NEXT and GEN of the stored operands append the same response. -/
theorem exec_next_agrees_with_gen {s : State} (hs : supported s.cfg = true) (hc : s.constructed = true) :
    ∃ t u d, exec .next s = .next t ∧ exec (.gen s.k s.c s.rounds) s = .next u ∧
      t.responses = s.responses ++ [⟨.ok, d⟩] ∧ u.responses = s.responses ++ [⟨.ok, d⟩] ∧ t.c = ctrinc s.c :=
  ⟨_, _, _, exec_of_answers (.next hs hc), exec_of_answers (.gen hs), rfl, rfl, rfl⟩

/-- Settles O35: CONSTRUCT leaves a constructed block whose stored operands are its own, so its second form is the first
in that state. -/
theorem nextAgreesWithGen : Obligations.NextAgreesWithGen := by
  refine ⟨fun _ => exec_next_agrees_with_gen, fun s k c r hs => ?_⟩
  obtain ⟨t, u, d, hnext, hgen, ht, hu, -⟩ :=
    exec_next_agrees_with_gen (s := (s.storeGenerator k c r).respond .ok 0) hs rfl
  exact ⟨_, t, u, d, exec_of_answers (.constructStores hs), hnext, hgen, ht, hu⟩

/-- Settles O39: by inversion of `exec`; among the ways to answer, only a successful CONSTRUCT writes `K`. -/
theorem keyNeverAdvances : Obligations.KeyNeverAdvances := by
  intro i s t hi h
  cases answers_of_exec h with
  | constructFails | constructStores => cases hi
  | next | nextb | peek | gen | round | keyadv | ctrinc => rfl

end Sys2Proof.Proofs
end

section
/-! The generator as the one input of a response (spec/42_generator_commands.md R118): what each operation leaves of
`generator?`, and that states with the same generator answer alike. -/

namespace Sys2Proof.Machine

section
variable (s : State)

@[simp] theorem State.generator?_respond (err : Err) (data : BitVec 128) :
    (s.respond err data).generator? = s.generator? := rfl

@[simp] theorem State.generator?_raiseConfigurationError (cause : Err) :
    (s.raiseConfigurationError cause).generator? = s.generator? := rfl

@[simp] theorem State.generator?_storeGenerator (k : Key) (c : Counter) (r : BitVec 8) :
    (s.storeGenerator k c r).generator? = some ⟨k, c, r⟩ := rfl

@[simp] theorem State.generator?_ranRounds (kind : Kind) (k : Key) (c : Counter) (r : BitVec 8) :
    (s.ranRounds kind k c r).generator? = s.generator? := rfl

@[simp] theorem State.generator?_observe (o : LeafOutput) : (s.observe o).generator? = s.generator? := rfl

@[simp] theorem State.generator?_advanceCounter :
    s.advanceCounter.generator? = s.generator?.map fun g => { g with counter := ctrinc g.counter } := by
  cases hc : s.constructed <;> simp [State.generator?, hc]

end

theorem State.generator?_eq_some_iff (s : State) (g : Generator) : s.generator? = some g ↔
    s.constructed = true ∧ s.k = g.key ∧ s.c = g.counter ∧ s.rounds = g.rounds := by
  cases g
  cases hc : s.constructed <;> simp [State.generator?, hc]

end Sys2Proof.Machine

namespace Sys2Proof.Proofs

open Machine

/-- Settles O37: by inversion of `exec`. What reads the generator reads the same one in both states; the rest of each
response comes from the operands and the configuration. -/
theorem responseDependsOnArchitecturalStateOnly : Obligations.ResponseDependsOnArchitecturalStateOnly := by
  intro i s t s' hcfg hgen h
  have hsup : supported s.cfg = true → supported t.cfg = true := fun hs => hcfg ▸ hs
  have hread : s.constructed = true →
      t.constructed = true ∧ t.k = s.k ∧ t.c = s.c ∧ t.rounds = s.rounds := fun hc =>
    (t.generator?_eq_some_iff ⟨s.k, s.c, s.rounds⟩).1 (hgen ▸ s.generator?_of_constructed hc)
  cases answers_of_exec h with
  | constructFails herr => exact ⟨_, _, exec_of_answers (.constructFails (hcfg ▸ herr)), rfl, rfl, by simp [hgen]⟩
  | constructStores hs => exact ⟨_, _, exec_of_answers (.constructStores (hsup hs)), rfl, rfl, by simp⟩
  | next hs hc =>
    obtain ⟨htc, hk, hcounter, hrounds⟩ := hread hc
    exact ⟨_, _, exec_of_answers (.next (hsup hs) htc), rfl, by simp [hk, hcounter, hrounds], by simp [hgen]⟩
  | nextb hs hc =>
    obtain ⟨htc, hk, hcounter, hrounds⟩ := hread hc
    exact ⟨_, _, exec_of_answers (.nextb (hsup hs) htc), rfl, by simp [hk, hcounter, hrounds], by simp [hgen]⟩
  | peek hs hc =>
    obtain ⟨htc, -, hcounter, -⟩ := hread hc
    exact ⟨_, _, exec_of_answers (.peek (hsup hs) htc), rfl, by simp [hcounter], by simp [hgen]⟩
  | gen hs => exact ⟨_, _, exec_of_answers (.gen (hsup hs)), rfl, rfl, by simp [hgen]⟩
  | round hs => exact ⟨_, [], exec_of_answers (.round (hsup hs)), by simp, by simp, by simp [hgen]⟩
  | keyadv hs => exact ⟨_, [], exec_of_answers (.keyadv (hsup hs)), by simp, by simp, by simp [hgen]⟩
  | ctrinc hs => exact ⟨_, [], exec_of_answers (.ctrinc (hsup hs)), by simp, by simp, by simp [hgen]⟩

end Sys2Proof.Proofs
end

section
/-! The counter increment (spec/43_counter_increment.md R130, R133): the carry ripples through the words that are all ones
and stops at the first that is not; a counter of all ones wraps to zero, and the generator goes on from there. -/

namespace Sys2Proof.Machine

theorem incWord_false (w : Word) : incWord false w = (w, false) := by simp [incWord]

theorem incWord_true_of_ne {w : Word} (h : w ≠ 0xFFFFFFFF) : incWord true w = (w + 1, false) := by
  have hsum : BitVec.ofNat 32 (w.toNat + true.toNat) = w + 1 := by simp [BitVec.ofNat_add]
  have hcarry : (true && w == 0xFFFFFFFF) = false := beq_eq_false_iff_ne.2 h
  rw [incWord, hsum, hcarry]

theorem incWord_true_ones : incWord true 0xFFFFFFFF = (0, true) := rfl

@[simp] theorem incWords_false (ws : List Word) : incWords false ws = ws := by
  induction ws with
  | nil => rfl
  | cons w ws ih => rw [incWords, incWord_false, ih]

theorem incWords_true_cons_of_ne {w : Word} (h : w ≠ 0xFFFFFFFF) (ws : List Word) :
    incWords true (w :: ws) = (w + 1) :: ws := by
  rw [incWords, incWord_true_of_ne h, incWords_false]

theorem incWords_true_cons_ones (ws : List Word) : incWords true (0xFFFFFFFF :: ws) = 0 :: incWords true ws := by
  rw [incWords, incWord_true_ones]

/-- The carry turns the leading words that are all ones into zeros and goes on into the word above them. -/
theorem incWords_true_replicate_append (j : Nat) (ws : List Word) :
    incWords true (List.replicate j 0xFFFFFFFF ++ ws) = List.replicate j 0 ++ incWords true ws := by
  induction j with
  | zero => rfl
  | succ j ih =>
    rw [List.replicate_succ, List.replicate_succ, List.cons_append, List.cons_append, incWords_true_cons_ones, ih]

/-- R130, second form, for any number of words: `w` is the least word that is not all ones, at index `j`. -/
theorem incWords_true_ripple (j : Nat) {w : Word} (h : w ≠ 0xFFFFFFFF) (ws : List Word) :
    incWords true (List.replicate j 0xFFFFFFFF ++ w :: ws) = List.replicate j 0 ++ (w + 1) :: ws := by
  rw [incWords_true_replicate_append, incWords_true_cons_of_ne h]

theorem counterWords_ctrinc (c : Counter) : counterWords (ctrinc c) = incWords true (counterWords c) := rfl

theorem counterWords_injective : Function.Injective counterWords := by
  rintro ⟨⟩ ⟨⟩ h
  simpa [counterWords] using h

/-- CTRINC takes `c` to the counter whose words are those of `c` incremented. -/
theorem ctrinc_eq_of_incWords {c e : Counter} (h : incWords true (counterWords c) = counterWords e) : ctrinc c = e :=
  counterWords_injective ((counterWords_ctrinc c).trans h)

theorem ctrinc_allOnes :
    ctrinc ⟨0xFFFFFFFF, 0xFFFFFFFF, 0xFFFFFFFF, 0xFFFFFFFF⟩ = ⟨0, 0, 0, 0⟩ :=
  ctrinc_eq_of_incWords (incWords_true_replicate_append 4 [])

end Sys2Proof.Machine

namespace Sys2Proof.Proofs

open Machine

/-- Settles O18: each clause is the ripple past `j` words of all ones, for `j` from 0 to 3, and the last the ripple past
all four. -/
theorem counterIncrementRipplesToTheFirstWordThatDoesNotWrap :
    Obligations.CounterIncrementRipplesToTheFirstWordThatDoesNotWrap := by
  intro a b c d
  refine ⟨fun ha => ?first, ?second, ?third, ?fourth, ?wrap⟩
  case first => exact ctrinc_eq_of_incWords (incWords_true_ripple 0 ha [b, c, d])
  case second => rintro rfl hb; exact ctrinc_eq_of_incWords (incWords_true_ripple 1 hb [c, d])
  case third => rintro rfl rfl hc; exact ctrinc_eq_of_incWords (incWords_true_ripple 2 hc [d])
  case fourth => rintro rfl rfl rfl hd; exact ctrinc_eq_of_incWords (incWords_true_ripple 3 hd [])
  case wrap => rintro rfl rfl rfl rfl; exact ctrinc_allOnes

/-- Settles O45: NEXT leaves the counter incremented and the block constructed, so the second NEXT mixes what the all-ones
counter wraps to. -/
theorem counterWrapsSilentlyAndGoesOn : Obligations.CounterWrapsSilentlyAndGoesOn := by
  intro s hs hc hones
  have hwrap : ctrinc s.c = ⟨0, 0, 0, 0⟩ := hones ▸ ctrinc_allOnes
  refine ⟨_, _, exec_of_answers (.next hs hc), ?wraps, rfl, exec_of_answers (.next hs hc), ?goesOn⟩
  case wraps => simp [hwrap]
  case goesOn => simp [hwrap]

end Sys2Proof.Proofs
end

section
/-! The steps of the controller's machine (spec/44_round_controller.md R140 to R143): what ACCEPT does with the offer it
takes, and ROUNDSTEP and FINISH as one write each. -/

namespace Sys2Proof.Machine

section
variable {s : State} {o : Offer} {rest : List Offer} (hp : s.ph = .idle) (ho : s.offered = o :: rest)
include hp ho

/-- An idle controller takes the first thing offered and accepts the instruction it decodes to. -/
theorem controllerStep_of_decode_ok {i : Instr} (hd : decode o = .ok i) :
    controllerStep s = accept i (s.take o rest) := by
  simp [controllerStep, hp, fetch_ok ho hd]

theorem controllerStep_of_decode_error {why : Illegal} (hd : decode o = .error why) :
    controllerStep s = .fault (.illegalCommand (s.accepted + commandCount o) why) := by
  simp [controllerStep, hp, fetch_error ho hd]

end

/-- R142: the three registers ROUNDSTEP writes, `RI` by an 8-bit increment. -/
theorem State.roundStep_eq (s : State) :
    s.roundStep = { s with sc := roundFn s.sc s.sk, sk := keyadv s.sk, ri := s.ri + 1 } := by
  have hri : BitVec.ofNat 8 (s.ri.toNat + 1) = s.ri + 1 := by simp [BitVec.ofNat_add]
  rw [State.roundStep, hri]

/-- R143 for NEXT and NEXTB. -/
theorem State.finish_of_ne_gen {s : State} (hk : s.kind ≠ .gen) :
    s.finish = { s with c := ctrinc s.c, responses := s.responses ++ [⟨.ok, pack s.sc⟩], ph := .idle } := by
  rw [State.finish, State.finishCounter_eq, if_neg hk]
  rfl

/-- R143 for GEN. -/
theorem State.finish_of_gen {s : State} (hk : s.kind = .gen) :
    s.finish = { s with responses := s.responses ++ [⟨.ok, pack s.sc⟩], ph := .idle } := by
  rw [State.finish, State.finishCounter_eq, if_pos hk]
  rfl

end Sys2Proof.Machine

namespace Sys2Proof.Proofs

open Machine

/-- Settles O48: ACCEPT takes the one decoded instruction, and the guard of each command goes the way the configuration
and `CONSTRUCTED` say. -/
theorem acceptLoadsTheScratchRegisters : Obligations.AcceptLoadsTheScratchRegisters := by
  refine ⟨fun s cw rest k c r hp ho hd => controllerStep_of_decode_ok hp ho hd, fun s cw rest hp ho hs => ?_⟩
  have hv : validWithoutDatapath s.cfg = false := validWithoutDatapath_of_supported hs
  have haccept : ∀ i, decodeCommand cw = .ok i → controllerStep s = accept i (s.take (.command cw) rest) :=
    fun _ => controllerStep_of_decode_ok hp ho
  refine ⟨?invalid, ?construct, ?peekUnconstructed, ?peek, ?nextUnconstructed, ?next, ?nextbUnconstructed, ?nextb, ?gen⟩
  case invalid => exact fun _ hd => ⟨_, controllerStep_of_decode_error hp ho hd⟩
  case construct =>
    exact fun k c r hd => (haccept _ hd).trans (exec_of_answers (s := s.take _ rest) (.constructStores hs))
  case peekUnconstructed | nextUnconstructed | nextbUnconstructed =>
    exact fun hd hc => ⟨_, (haccept _ hd).trans (readGenerator_of_not_constructed _ hv hc)⟩
  case peek | next | nextb => exact fun hd hc => (haccept _ hd).trans (readGenerator_of_constructed _ hs hc)
  case gen => exact fun k c r hd => (haccept _ hd).trans (requireDatapath_of_supported _ hs)

/-- Settles O49: the controller's step is ROUNDSTEP or FINISH, each one write of the state. -/
theorem roundStepAndFinishWriteTheirRegisters : Obligations.RoundStepAndFinishWriteTheirRegisters := by
  intro s hp
  rw [controllerStep_of_run hp]
  refine ⟨fun hlt => ?round, fun heq hk => ?draw, fun heq hk => ?gen⟩
  case round => rw [runStep_of_lt hp hlt, State.roundStep_eq]
  case draw => rw [runStep_of_eq hp heq, State.finish_of_ne_gen hk]
  case gen => rw [runStep_of_eq hp heq, State.finish_of_gen hk]

end Sys2Proof.Proofs
end

section
/-! A command in progress (spec/44_round_controller.md R140, R145, R148): which step is enabled, and what the rounds come
to. -/

namespace Sys2Proof.Machine

open Safety

theorem roundStepEnabled_eq_true_iff (s : State) :
    roundStepEnabled s = true ↔ s.ph = .run ∧ s.ri.toNat < s.rt.toNat := by
  simp [roundStepEnabled]

theorem finishEnabled_eq_true_iff (s : State) : finishEnabled s = true ↔ s.ph = .run ∧ s.ri = s.rt := by
  simp [finishEnabled]

/-- While `RI` has not passed `RT`, FINISH is enabled exactly when ROUNDSTEP is not. -/
theorem finishEnabled_eq_not_roundStepEnabled {s : State} (hp : s.ph = .run) (hle : s.ri.toNat ≤ s.rt.toNat) :
    finishEnabled s = !roundStepEnabled s := by
  rw [Bool.eq_iff_iff, Bool.not_eq_true', Bool.eq_false_iff, ne_eq, roundStepEnabled_eq_true_iff,
    finishEnabled_eq_true_iff, ← BitVec.toNat_inj]
  simp only [hp, true_and]
  omega

/-- R145: `n` rounds of a command that has them left, in all registers. -/
theorem runController_rounds {n : Nat} {s : State} (hp : s.ph = .run) (hn : s.ri.toNat + n ≤ s.rt.toNat) :
    runController n s = .next
      { s with sk := keyadvN n s.sk, sc := mix s.sk s.sc n, ri := BitVec.ofNat 8 (s.ri.toNat + n) } := by
  induction n generalizing s with
  | zero =>
    have hri : BitVec.ofNat 8 (s.ri.toNat + 0) = s.ri := by simp
    rw [hri]
    rfl
  | succ n ih =>
    have hlt : s.ri.toNat < s.rt.toNat := by omega
    have hri : s.roundStep.ri.toNat = s.ri.toNat + 1 := State.roundStep_ri_toNat hlt
    have hstep : controllerStep s = .next s.roundStep := (controllerStep_of_run hp).trans (runStep_of_lt hp hlt)
    have hrest : runController n s.roundStep = _ := ih hp (by rw [hri, State.roundStep_rt]; omega)
    rw [hri, Nat.add_right_comm, Nat.add_assoc] at hrest
    exact (run_succ controller n s s.roundStep hstep).trans hrest

/-- The rounds left bring a command in progress to its FINISH, unanswered. -/
theorem runController_reaches_finish {s : State} (hp : s.ph = .run) (hle : s.ri.toNat ≤ s.rt.toNat) :
    ∃ u, runController (s.rt.toNat - s.ri.toNat) s = .next u ∧ u.ph = .run ∧ u.ri = u.rt ∧
      u.responses = s.responses := by
  refine ⟨_, runController_rounds hp (by omega), hp, ?_, rfl⟩
  simp [Nat.add_sub_cancel' hle]

end Sys2Proof.Machine

namespace Sys2Proof.Proofs

open Machine Safety

/-- R148: a round brings `RI` one nearer to `RT`. -/
theorem roundsLeft_after_roundStep {s t : State} (hr : roundStepEnabled s = true) (h : controllerStep s = .next t) :
    t.ph = .run ∧ t.rt = s.rt ∧ t.rt.toNat - t.ri.toNat + 1 = s.rt.toNat - s.ri.toNat := by
  obtain ⟨hp, hlt⟩ := (roundStepEnabled_eq_true_iff s).1 hr
  rw [controllerStep_of_run hp, runStep_of_lt hp hlt] at h
  cases h
  refine ⟨hp, rfl, ?_⟩
  rw [State.roundStep_ri_toNat hlt, State.roundStep_rt]
  omega

/-- Settles O53: the rounds left lead to a state where FINISH is enabled, and the step after them is FINISH. -/
theorem aBusyControllerReachesFinish : Obligations.ABusyControllerReachesFinish := by
  intro s hp hle
  obtain ⟨u, hrun, hup, hu, hres⟩ := runController_reaches_finish hp hle
  refine ⟨?oneEnabled, fun _ => roundsLeft_after_roundStep,
    ⟨u, hrun, (finishEnabled_eq_true_iff u).2 ⟨hup, hu⟩, hres⟩,
    ⟨u.finish, ⟨.ok, pack u.sc⟩, ?finishes, u.finish_ph, ?answers, rfl⟩⟩
  case oneEnabled =>
    rw [finishEnabled_eq_not_roundStepEnabled hp hle]
    cases roundStepEnabled s <;> simp
  case finishes =>
    have hstep : controllerStep u = .next u.finish := (controllerStep_of_run hup).trans (runStep_of_eq hup hu)
    exact (run_add controller _ 1 s u hrun).trans (run_succ controller 0 u u.finish hstep)
  case answers => rw [State.finish_responses, hres]

end Sys2Proof.Proofs
end

section
/-! Refusals (spec/60_exceptions.md R160): which operations refuse, and that a refusal says the configuration is none the
datapath exists for. The command-level step and the controller's are one step that differs in what an idle block does with
the instruction it takes. -/

namespace Sys2Proof.Machine

/-- One step of a block that carries out by `act` the instruction it takes. -/
def stepWith (act : Instr → State → Host.Outcome State Fault Refusal) (s : State) : Host.Outcome State Fault Refusal :=
  match s.ph with
  | .run => runStep s
  | .idle =>
    match fetch s with
    | .nothing => .next s
    | .instr i t => act i t
    | .invalid f => .fault f

theorem step_eq_stepWith (s : State) : step s = stepWith exec s := rfl

theorem controllerStep_eq_stepWith (s : State) : controllerStep s = stepWith accept s := rfl

section
variable {act : Instr → State → Host.Outcome State Fault Refusal} {s : State}

theorem stepWith_of_run (hp : s.ph = .run) : stepWith act s = runStep s := by simp [stepWith, hp]

variable (hp : s.ph = .idle)
include hp

theorem stepWith_of_nil (ho : s.offered = []) : stepWith act s = .next s := by simp [stepWith, hp, fetch_nil ho]

variable {o : Offer} {rest : List Offer} (ho : s.offered = o :: rest)
include ho

theorem stepWith_of_decode_ok {i : Instr} (hd : decode o = .ok i) : stepWith act s = act i (s.take o rest) := by
  simp [stepWith, hp, fetch_ok ho hd]

theorem stepWith_of_decode_error {why : Illegal} (hd : decode o = .error why) :
    stepWith act s = .fault (.illegalCommand (s.accepted + commandCount o) why) := by
  simp [stepWith, hp, fetch_error ho hd]

end

theorem requireDatapath_next_eq_refused {s t : State} {q : Refusal} (h : requireDatapath s (.next t) = .refused q) :
    q = .unsupportedConfiguration ∧ supported s.cfg = false := by
  cases hs : supported s.cfg with
  | true => rw [requireDatapath_of_supported _ hs] at h; cases h
  | false => rw [requireDatapath_of_not_supported _ hs] at h; cases h; exact ⟨rfl, rfl⟩

theorem readGenerator_next_eq_refused {s : State} {answer : Generator → State} {q : Refusal}
    (h : readGenerator s (fun g => .next (answer g)) = .refused q) :
    q = .unsupportedConfiguration ∧ supported s.cfg = false := by
  unfold readGenerator at h
  split at h
  · cases h; exact ⟨rfl, supported_eq_false_of_validWithoutDatapath ‹_›⟩
  · split at h
    · cases h
    · exact requireDatapath_next_eq_refused h

theorem execConstruct_eq_refused {k : Key} {c : Counter} {r : BitVec 8} {s : State} {q : Refusal}
    (h : execConstruct k c r s = .refused q) : q = .unsupportedConfiguration ∧ supported s.cfg = false := by
  unfold execConstruct at h
  split at h
  · cases h
  · exact requireDatapath_next_eq_refused h

theorem exec_eq_refused {i : Instr} {s : State} {q : Refusal} (h : exec i s = .refused q) :
    q = .unsupportedConfiguration ∧ supported s.cfg = false := by
  cases i with
  | construct => exact execConstruct_eq_refused h
  | next | nextb | peek => exact readGenerator_next_eq_refused h
  | gen | round | keyadv | ctrinc => exact requireDatapath_next_eq_refused h

theorem accept_eq_refused {i : Instr} {s : State} {q : Refusal} (h : accept i s = .refused q) :
    q = .unsupportedConfiguration ∧ supported s.cfg = false := by
  cases i with
  | construct => exact execConstruct_eq_refused h
  | next | nextb | peek => exact readGenerator_next_eq_refused h
  | gen | round | keyadv | ctrinc => exact requireDatapath_next_eq_refused h

theorem runStep_ne_refused (s : State) (q : Refusal) : runStep s ≠ .refused q := by
  unfold runStep
  split
  · nofun
  · split <;> nofun

/-- A step refuses only by refusing the instruction it takes, in a state of the same configuration. -/
theorem stepWith_eq_refused {act : Instr → State → Host.Outcome State Fault Refusal} {s : State} {q : Refusal}
    (h : stepWith act s = .refused q) : ∃ i t, t.cfg = s.cfg ∧ act i t = .refused q := by
  cases hp : s.ph with
  | run => exact absurd ((stepWith_of_run hp).symm.trans h) (runStep_ne_refused s q)
  | idle =>
    cases ho : s.offered with
    | nil => rw [stepWith_of_nil hp ho] at h; cases h
    | cons o rest =>
      cases hd : decode o with
      | ok i => rw [stepWith_of_decode_ok hp ho hd] at h; exact ⟨i, _, s.take_cfg o rest, h⟩
      | error why => rw [stepWith_of_decode_error hp ho hd] at h; cases h

theorem ne_hardware_of_not_supported {cfg : Config} (hs : supported cfg = false) : cfg ≠ Config.hardware := by
  rintro rfl
  cases hs

end Sys2Proof.Machine
end

section
/-! More offered behind (spec/60_exceptions.md R159, R160; spec/44_round_controller.md R144): a block looks at the first
offer only, so its steps carry later offers along, and a run that has stopped stops in the same way with them. -/

namespace Sys2Proof.Machine

/-- The host offers `later` behind what is already offered. -/
def State.offerAll (s : State) (later : List Offer) : State := { s with offered := s.offered ++ later }

section
variable (s : State) (later : List Offer)

@[simp] theorem State.offerAll_cfg : (s.offerAll later).cfg = s.cfg := rfl
@[simp] theorem State.offerAll_offered : (s.offerAll later).offered = s.offered ++ later := rfl
@[simp] theorem State.offerAll_accepted : (s.offerAll later).accepted = s.accepted := rfl
@[simp] theorem State.generator?_offerAll : (s.offerAll later).generator? = s.generator? := rfl

theorem State.offerAll_roundStep : (s.offerAll later).roundStep = s.roundStep.offerAll later := rfl

theorem State.offerAll_finish : (s.offerAll later).finish = s.finish.offerAll later := by
  by_cases hk : s.kind = .gen
  · rw [State.finish_of_gen hk]
    exact State.finish_of_gen hk
  · rw [State.finish_of_ne_gen hk]
    exact State.finish_of_ne_gen hk

end

/-- An outcome with `g` applied to its next state; a fault or a refusal stays. -/
def mapNext {σ φ ρ : Type} (g : σ → σ) : Host.Outcome σ φ ρ → Host.Outcome σ φ ρ
  | .next s => .next (g s)
  | .fault f => .fault f
  | .refused q => .refused q

/-- `act` does not look at later offers: with them behind, it does the same and leaves them behind. -/
def CarriesLater (act : State → Host.Outcome State Fault Refusal) : Prop :=
  ∀ s later, act (s.offerAll later) = mapNext (·.offerAll later) (act s)

theorem carriesLater_requireDatapath {answer : State → State}
    (h : ∀ s later, answer (s.offerAll later) = (answer s).offerAll later) :
    CarriesLater fun s => requireDatapath s (.next (answer s)) := by
  intro s later
  cases hs : supported s.cfg <;> simp [hs, h, mapNext]

theorem carriesLater_readGenerator {answer : Generator → State → State}
    (h : ∀ g s later, answer g (s.offerAll later) = (answer g s).offerAll later) :
    CarriesLater fun s => readGenerator s fun g => .next (answer g s) := by
  intro s later
  cases hv : validWithoutDatapath s.cfg with
  | true => simp [readGenerator_of_validWithoutDatapath, hv, mapNext]
  | false =>
    cases hg : s.generator? with
    | none => simp [readGenerator, hv, hg, mapNext]
    | some g => simpa [readGenerator, hv, hg] using carriesLater_requireDatapath (h g) s later

theorem carriesLater_execConstruct (k : Key) (c : Counter) (r : BitVec 8) : CarriesLater (execConstruct k c r) := by
  intro s later
  simp only [execConstruct, State.offerAll_cfg]
  cases configError? s.cfg with
  | some cause => rfl
  | none =>
    exact carriesLater_requireDatapath (answer := fun s => (s.storeGenerator k c r).respond .ok 0) (fun _ _ => rfl)
      s later

theorem carriesLater_exec (i : Instr) : CarriesLater (exec i) := by
  cases i with
  | construct k c r => exact carriesLater_execConstruct k c r
  | next | nextb | peek => exact carriesLater_readGenerator fun _ _ _ => rfl
  | gen | round | keyadv | ctrinc => exact carriesLater_requireDatapath fun _ _ => rfl

theorem carriesLater_accept (i : Instr) : CarriesLater (accept i) := by
  cases i with
  | construct k c r => exact carriesLater_execConstruct k c r
  | next | nextb | peek => exact carriesLater_readGenerator fun _ _ _ => rfl
  | gen | round | keyadv | ctrinc => exact carriesLater_requireDatapath fun _ _ => rfl

theorem carriesLater_runStep : CarriesLater runStep := by
  intro s later
  have hround : roundStepEnabled (s.offerAll later) = roundStepEnabled s := rfl
  have hfinish : finishEnabled (s.offerAll later) = finishEnabled s := rfl
  simp only [runStep, hround, hfinish, State.offerAll_roundStep, State.offerAll_finish]
  split
  · rfl
  · split <;> rfl

/-- A step that finds something to do takes the first offer at most; later offers go along. -/
theorem stepWith_offerAll {act : Instr → State → Host.Outcome State Fault Refusal} (hact : ∀ i, CarriesLater (act i))
    (s : State) (later : List Offer) :
    stepWith act s = .next s ∨ stepWith act (s.offerAll later) = mapNext (·.offerAll later) (stepWith act s) := by
  cases hp : s.ph with
  | run =>
    rw [stepWith_of_run hp, stepWith_of_run (s := s.offerAll later) hp]
    exact .inr (carriesLater_runStep s later)
  | idle =>
    cases ho : s.offered with
    | nil => exact .inl (stepWith_of_nil hp ho)
    | cons o rest =>
      have hmore : (s.offerAll later).offered = o :: (rest ++ later) := by simp [ho]
      cases hd : decode o with
      | ok i =>
        rw [stepWith_of_decode_ok hp ho hd, stepWith_of_decode_ok (s := s.offerAll later) hp hmore hd]
        exact .inr (hact i (s.take o rest) later)
      | error why =>
        rw [stepWith_of_decode_error hp ho hd, stepWith_of_decode_error (s := s.offerAll later) hp hmore hd]
        exact .inr rfl

/-- If each step either stays where it is or does the same after `g` as before, a run that has stopped stops in the same
way from the start changed by `g`, however many steps follow. -/
theorem run_stopped_of_mapNext (M : Host.Core) (g : M.State → M.State)
    (hstep : ∀ s, M.step s = .next s ∨ M.step (g s) = mapNext g (M.step s)) {n m : Nat} (hnm : n ≤ m) (s : M.State)
    (hstop : ∀ t, M.run n s ≠ .next t) : M.run m (g s) = M.run n s := by
  induction n generalizing m s with
  | zero => exact absurd rfl (hstop s)
  | succ n ih =>
    obtain hstay | hsame := hstep s
    · rw [run_succ M n s s hstay] at hstop ⊢
      exact ih (Nat.le_of_succ_le hnm) s hstop
    · obtain ⟨m, rfl⟩ := Nat.exists_eq_add_one_of_ne_zero (Nat.ne_zero_of_lt hnm)
      cases ht : M.step s with
      | next t =>
        rw [ht] at hsame
        rw [run_succ M n s t ht] at hstop ⊢
        rw [run_succ M m (g s) (g t) hsame]
        exact ih (Nat.le_of_succ_le_succ hnm) t hstop
      | fault f =>
        rw [ht] at hsame
        simp only [Host.Core.run, ht, hsame, mapNext]
      | refused q =>
        rw [ht] at hsame
        simp only [Host.Core.run, ht, hsame, mapNext]

end Sys2Proof.Machine

namespace Sys2Proof.Proofs

open Machine Safety

section
variable {n m : Nat} (hnm : n ≤ m) (s : State) (later : List Offer)
include hnm

/-- R159, R160: what stops a run of the command-level machine stops every longer run with more offered behind. -/
theorem runSteps_stopped_offerAll (hstop : ∀ t, runSteps n s ≠ .next t) :
    runSteps m (s.offerAll later) = runSteps n s :=
  run_stopped_of_mapNext core (·.offerAll later) (fun s => stepWith_offerAll carriesLater_exec s later) hnm s hstop

/-- R159, R160 for the controller's machine. -/
theorem runController_stopped_offerAll (hstop : ∀ t, runController n s ≠ .next t) :
    runController m (s.offerAll later) = runController n s :=
  run_stopped_of_mapNext controller (·.offerAll later) (fun s => stepWith_offerAll carriesLater_accept s later) hnm s
    hstop

end

theorem fault_and_ne_next {x : Host.Outcome State Fault Refusal} {f : Fault} (h : x = .fault f) :
    x = .fault f ∧ ∀ t, x ≠ .next t := ⟨h, by simp [h]⟩

/-- Settles O34: a run that has faulted has stopped, and a stopped run stops in the same way with more offered behind. -/
theorem aFaultIsForGood : Obligations.AFaultIsForGood := by
  refine fun s later n m f hnm => ⟨fun h => fault_and_ne_next ?steps, fun h => fault_and_ne_next ?controllerSteps⟩
  case steps => exact (runSteps_stopped_offerAll hnm s later fun t => by simp [h]).trans h
  case controllerSteps => exact (runController_stopped_offerAll hnm s later fun t => by simp [h]).trans h

/-- Every command is refused on a valid configuration without a datapath, whatever the state. -/
theorem exec_command_refused {s : State} {i : Instr} (hi : isCommand i = true)
    (hv : validWithoutDatapath s.cfg = true) : exec i s = .refused .unsupportedConfiguration := by
  have hs : supported s.cfg = false := supported_eq_false_of_validWithoutDatapath hv
  cases i with
  | construct =>
    have hvalid := ((validWithoutDatapath_eq_true_iff s.cfg).1 hv).1
    exact exec_construct_refused ((configError?_eq_none_iff s.cfg).2 hvalid) hs
  | next | nextb | peek => exact readGenerator_of_validWithoutDatapath _ hv
  | gen => exact requireDatapath_of_not_supported _ hs
  | round | keyadv | ctrinc => cases hi

/-- Either machine's step refuses for the one reason, and only off the datapath's configuration. -/
theorem either_step_refused {s : State} {q : Refusal} (h : step s = .refused q ∨ controllerStep s = .refused q) :
    q = .unsupportedConfiguration ∧ supported s.cfg = false := by
  rw [step_eq_stepWith, controllerStep_eq_stepWith] at h
  obtain h | h := h
  · obtain ⟨i, t, hcfg, hi⟩ := stepWith_eq_refused h
    exact hcfg ▸ exec_eq_refused hi
  · obtain ⟨i, t, hcfg, hi⟩ := stepWith_eq_refused h
    exact hcfg ▸ accept_eq_refused hi

/-- Settles O33: by the guard each command passes, by inversion of a refusal, and by what stops a run stopping every
longer one. -/
theorem unsupportedConfigurationsAreRefused : Obligations.UnsupportedConfigurationsAreRefused := by
  refine ⟨fun s i hi hw hl hn => ?commands, fun s k c r => (genAnswersTheMixOfItsOperands s k c r).2,
    fun s i q h => ?exec, fun s q h => ?steps, fun s later n m q hnm => ⟨fun h => ?run, fun h => ?controllerRun⟩⟩
  case commands => exact exec_command_refused hi ((validWithoutDatapath_eq_true_iff s.cfg).2 ⟨⟨hw, hl⟩, hn⟩)
  case exec => exact (exec_eq_refused h).imp_right ne_hardware_of_not_supported
  case steps => exact (either_step_refused h).imp_right ne_hardware_of_not_supported
  case run => exact (runSteps_stopped_offerAll hnm s later fun t => by simp [h]).trans h
  case controllerRun => exact (runController_stopped_offerAll hnm s later fun t => by simp [h]).trans h

end Sys2Proof.Proofs
end

section
/-! The encoder (spec/30_encoding.md R70 to R77, R85): what is encoded decodes to itself, a decoded word is the word of its
own fields, and an offer decodes exactly when it is well formed. -/

namespace Sys2Proof

open Machine

section
variable (k : Key) (c : Counter) (r : BitVec 8)

theorem decodeCommand_commandWord_one : decodeCommand (commandWord 1 k c r) = .ok (.construct k c r) := by
  rw [decodeCommand_of_op_one (rsvField_commandWord 1 k c r) (opField_commandWord 1 k c r)]
  simp

theorem decodeCommand_commandWord_two : decodeCommand (commandWord 2 k c r) = .ok .next :=
  decodeCommand_of_op_two (rsvField_commandWord 2 k c r) (opField_commandWord 2 k c r)

theorem decodeCommand_commandWord_three : decodeCommand (commandWord 3 k c r) = .ok .nextb :=
  decodeCommand_of_op_three (rsvField_commandWord 3 k c r) (opField_commandWord 3 k c r)

theorem decodeCommand_commandWord_four : decodeCommand (commandWord 4 k c r) = .ok .peek :=
  decodeCommand_of_op_four (rsvField_commandWord 4 k c r) (opField_commandWord 4 k c r)

theorem decodeCommand_commandWord_five : decodeCommand (commandWord 5 k c r) = .ok (.gen k c r) := by
  rw [decodeCommand_of_op_five (rsvField_commandWord 5 k c r) (opField_commandWord 5 k c r)]
  simp

theorem decode_roundPorts_append : decode (.roundPorts (packKey k ++ pack c)) = .ok (.round c k) := by
  have hctr : (packKey k ++ pack c).extractLsb' 0 128 = pack c := BitVec.extractLsb'_append_eq_right
  have hkey : (packKey k ++ pack c).extractLsb' 128 64 = packKey k := BitVec.extractLsb'_append_eq_left
  rw [decode, hctr, hkey, unpack_pack, unpackKey_packKey]

end

/-- Decoding undoes encoding, instruction by instruction. -/
theorem decode_encode (i : Instr) : decode (encode i) = .ok i := by
  cases i with
  | construct k c r => exact decodeCommand_commandWord_one k c r
  | next => exact decodeCommand_commandWord_two ..
  | nextb => exact decodeCommand_commandWord_three ..
  | peek => exact decodeCommand_commandWord_four ..
  | gen k c r => exact decodeCommand_commandWord_five k c r
  | round c k => exact decode_roundPorts_append k c
  | keyadv k => rw [encode, decode, unpackKey_packKey]
  | ctrinc c => rw [encode, decode, unpack_pack]

/-- R86: which command words decode to a command. -/
theorem decodeCommand_eq_ok_iff (cw : BitVec 208) : (∃ i, decodeCommand cw = .ok i) ↔
    rsvField cw = 0#5 ∧ ¬ (opField cw = 0 ∨ opField cw = 6 ∨ opField cw = 7) := by
  have herror := decodeCommand_eq_error_iff cw
  cases hd : decodeCommand cw with
  | ok i =>
    have hnone : ¬ ∃ why, decodeCommand cw = .error why := by simp [hd]
    rw [herror, not_or, not_not] at hnone
    exact iff_of_true ⟨i, rfl⟩ hnone
  | error why =>
    have hbad := herror.1 ⟨why, hd⟩
    exact iff_of_false nofun fun ⟨hr, ho⟩ => hbad.elim (· hr) ho

theorem reservedZero_eq_true_iff (cw : BitVec 208) : reservedZero cw = true ↔ rsvField cw = 0#5 := by
  simp [reservedZero, rsvField]

theorem opAssigned_eq_true_iff (cw : BitVec 208) :
    opAssigned cw = true ↔ ¬ (opField cw = 0 ∨ opField cw = 6 ∨ opField cw = 7) := by
  have hcodes : ∀ op : BitVec 3,
      (decide (1 ≤ op.toNat) && decide (op.toNat ≤ 5)) = true ↔ ¬ (op = 0 ∨ op = 6 ∨ op = 7) := by decide
  exact hcodes (opField cw)

/-- R70: a command word with `rsv` zero is made up of its own fields. -/
theorem commandWord_fields {cw : BitVec 208} (hr : rsvField cw = 0#5) :
    commandWord (opField cw) (keyField cw) (ctrField cw) (roundsField cw) = cw := by
  apply BitVec.eq_of_getLsbD_eq
  intro i hi
  have hrsv : i - 3 < 5 → cw.getLsbD (3 + (i - 3)) = false := fun h => by
    have := congrArg (·.getLsbD (i - 3)) hr
    simpa [rsvField, h] using this
  rw [getLsbD_commandWord, keyField, packKey_unpackKey, ctrField, pack_unpack]
  split_ifs with h3 h8 h16 h80
  · simp [opField, h3]
  · rw [← hrsv (by omega)]; congr 1; omega
  · simp [roundsField, show i - 8 < 8 by omega, show 8 + (i - 8) = i by omega]
  · simp [show i - 16 < 64 by omega, show 16 + (i - 16) = i by omega]
  · simp [show i - 80 < 128 by omega, show 80 + (i - 80) = i by omega]

/-- The low byte of a command word is `rsv` above `op` (R70). -/
theorem lowByte_eq (cw : BitVec 208) : cw.extractLsb' 0 8 = rsvField cw ++ opField cw := by
  apply BitVec.eq_of_getLsbD_eq
  intro i hi
  rw [BitVec.getLsbD_append]
  split_ifs with h
  · simp [opField, h, hi]
  · simp [rsvField, hi, show i - 3 < 5 by omega, show 3 + (i - 3) = i by omega]

/-- The canonical word of an operation code has the low byte of every word of that code. -/
theorem lowByte_bareWord {cw : BitVec 208} {op : BitVec 3} (hr : rsvField cw = 0#5) (ho : opField cw = op) :
    cw.extractLsb' 0 8 = (bareWord op).extractLsb' 0 8 := by
  rw [lowByte_eq, lowByte_eq, hr, ho, bareWord, rsvField_commandWord, opField_commandWord]

end Sys2Proof

namespace Sys2Proof.Proofs

open Machine

/-- Settles O8: decoding undoes encoding for every instruction, every one being well formed. -/
theorem decodeOfEncodeIsTheInstruction : Obligations.DecodeOfEncodeIsTheInstruction := fun i _ => decode_encode i

/-- Settles O7: `rsv` and `op` decide both, and ports always decode. -/
theorem wellFormedOffersAreThoseThatDecode : Obligations.WellFormedOffersAreThoseThatDecode := by
  intro o
  cases o with
  | command cw =>
    rw [Offer.wellFormed, Bool.and_eq_true, reservedZero_eq_true_iff, opAssigned_eq_true_iff]
    exact (decodeCommand_eq_ok_iff cw).symm
  | roundPorts | keyPorts | counterPorts => exact iff_of_true rfl ⟨_, rfl⟩

/-- What a command word decodes to encodes to the word again, or is a bare command with the word's low byte. -/
theorem encode_of_decodeCommand {cw : BitVec 208} {i : Instr} (h : decodeCommand cw = .ok i) :
    ((i ≠ .next ∧ i ≠ .nextb ∧ i ≠ .peek) ∧ encode i = .command cw) ∨
    ((i = .next ∨ i = .nextb ∨ i = .peek) ∧
      ∃ cw', encode i = .command cw' ∧ cw.extractLsb' 0 8 = cw'.extractLsb' 0 8) := by
  obtain ⟨hr, ho⟩ := (decodeCommand_eq_ok_iff cw).1 ⟨i, h⟩
  have hword := commandWord_fields hr
  obtain ho | ho | ho | ho | ho := (op_cases (opField cw)).resolve_left ho
  · rw [decodeCommand_of_op_one hr ho] at h
    cases h
    exact .inl ⟨⟨nofun, nofun, nofun⟩, congrArg _ (ho ▸ hword)⟩
  · rw [decodeCommand_of_op_two hr ho] at h
    cases h
    exact .inr ⟨.inl rfl, _, rfl, lowByte_bareWord hr ho⟩
  · rw [decodeCommand_of_op_three hr ho] at h
    cases h
    exact .inr ⟨.inr (.inl rfl), _, rfl, lowByte_bareWord hr ho⟩
  · rw [decodeCommand_of_op_four hr ho] at h
    cases h
    exact .inr ⟨.inr (.inr rfl), _, rfl, lowByte_bareWord hr ho⟩
  · rw [decodeCommand_of_op_five hr ho] at h
    cases h
    exact .inl ⟨⟨nofun, nofun, nofun⟩, congrArg _ (ho ▸ hword)⟩

/-- Settles O9: a command word is made up of its fields, and ports are the packing of what they unpack to. -/
theorem encodeOfDecodeIsTheWord : Obligations.EncodeOfDecodeIsTheWord := by
  intro o i h
  cases o with
  | command cw =>
    obtain ⟨⟨hn, hb, hp⟩, hword⟩ | ⟨hbare, cw', henc, hlow⟩ := encode_of_decodeCommand h
    · exact ⟨fun _ _ _ => hword, fun hbare => by simp [hn, hb, hp] at hbare⟩
    · exact ⟨fun hn hb hp => by simp [hn, hb, hp] at hbare, fun _ => ⟨cw, cw', rfl, henc, hlow⟩⟩
  | roundPorts x =>
    cases h
    refine ⟨fun _ _ _ => congrArg Offer.roundPorts ?_, nofun⟩
    rw [pack_unpack, packKey_unpackKey]
    exact BitVec.extractLsb'_append_extractLsb'_eq_extractLsb' rfl |>.trans (by simp)
  | keyPorts x => cases h; exact ⟨fun _ _ _ => congrArg Offer.keyPorts (packKey_unpackKey x), nofun⟩
  | counterPorts x => cases h; exact ⟨fun _ _ _ => congrArg Offer.counterPorts (pack_unpack x), nofun⟩

end Sys2Proof.Proofs
end

section
/-! What a host cannot see (spec/10_state.md R37): operations take states a host cannot tell apart to such states, so
instructions, steps and whole runs do. -/

namespace Sys2Proof.Machine

open Safety

section
variable {s t : State} (h : sameToHost s t)
include h

theorem sameToHost_respond (err : Err) (data : BitVec 128) : sameToHost (s.respond err data) (t.respond err data) := by
  obtain ⟨hcfg, hgen, hs, ht, hoff, hacc, hres, hleaf⟩ := h
  exact ⟨hcfg, hgen, hs, ht, hoff, hacc, by simp [hres], hleaf⟩

theorem sameToHost_storeGenerator (k : Key) (c : Counter) (r : BitVec 8) :
    sameToHost (s.storeGenerator k c r) (t.storeGenerator k c r) := by
  obtain ⟨hcfg, -, hs, ht, hoff, hacc, hres, hleaf⟩ := h
  exact ⟨hcfg, rfl, hs, ht, hoff, hacc, hres, hleaf⟩

theorem sameToHost_ranRounds (kind : Kind) (k : Key) (c : Counter) (r : BitVec 8) :
    sameToHost (s.ranRounds kind k c r) (t.ranRounds kind k c r) := by
  obtain ⟨hcfg, hgen, -, -, hoff, hacc, hres, hleaf⟩ := h
  exact ⟨hcfg, hgen, rfl, rfl, hoff, hacc, hres, hleaf⟩

theorem sameToHost_advanceCounter : sameToHost s.advanceCounter t.advanceCounter := by
  obtain ⟨hcfg, hgen, hs, ht, hoff, hacc, hres, hleaf⟩ := h
  exact ⟨hcfg, by simp [hgen], hs, ht, hoff, hacc, hres, hleaf⟩

theorem sameToHost_observe (o : LeafOutput) : sameToHost (s.observe o) (t.observe o) := by
  obtain ⟨hcfg, hgen, hs, ht, hoff, hacc, hres, hleaf⟩ := h
  exact ⟨hcfg, hgen, hs, ht, hoff, hacc, hres, by simp [hleaf]⟩

theorem sameToHost_take (o : Offer) (rest : List Offer) : sameToHost (s.take o rest) (t.take o rest) := by
  obtain ⟨hcfg, hgen, hs, ht, -, hacc, hres, hleaf⟩ := h
  exact ⟨hcfg, hgen, hs, ht, rfl, by simp [hacc], hres, hleaf⟩

theorem sameOutcome_requireDatapath {s' t' : State} (hnext : sameToHost s' t') :
    sameOutcome (requireDatapath s (.next s')) (requireDatapath t (.next t')) := by
  obtain ⟨hcfg, -⟩ := h
  rw [requireDatapath, requireDatapath, hcfg]
  split
  · exact hnext
  · rfl

theorem sameOutcome_readGenerator {answer answer' : Generator → State}
    (hnext : ∀ g, sameToHost (answer g) (answer' g)) :
    sameOutcome (readGenerator s fun g => .next (answer g)) (readGenerator t fun g => .next (answer' g)) := by
  have ⟨hcfg, hgen, _, _, _, hacc, _⟩ := h
  rw [readGenerator, readGenerator, hcfg, hgen, hacc]
  split
  · rfl
  · split
    · rfl
    · exact sameOutcome_requireDatapath h (hnext _)

theorem sameOutcome_execConstruct (k : Key) (c : Counter) (r : BitVec 8) :
    sameOutcome (execConstruct k c r s) (execConstruct k c r t) := by
  have ⟨hcfg, _⟩ := h
  rw [execConstruct, execConstruct, hcfg]
  split
  · exact sameToHost_respond h _ _
  · exact sameOutcome_requireDatapath h (sameToHost_respond (sameToHost_storeGenerator h k c r) _ _)

/-- The state change and the response of a draw. -/
theorem sameToHost_draw (kind : Kind) (k : Key) (c : Counter) (r : BitVec 8) (data : BitVec 128) :
    sameToHost (((s.ranRounds kind k c r).advanceCounter).respond .ok data)
      (((t.ranRounds kind k c r).advanceCounter).respond .ok data) :=
  sameToHost_respond (sameToHost_advanceCounter (sameToHost_ranRounds h kind k c r)) _ _

theorem sameOutcome_exec (i : Instr) : sameOutcome (exec i s) (exec i t) := by
  cases i with
  | construct k c r => exact sameOutcome_execConstruct h k c r
  | next => exact sameOutcome_readGenerator h fun g => sameToHost_draw h .next g.key g.counter g.rounds _
  | nextb => exact sameOutcome_readGenerator h fun g => sameToHost_draw h .nextb g.key g.counter g.rounds _
  | peek => exact sameOutcome_readGenerator h fun g => sameToHost_respond h .ok (pack g.counter)
  | gen k c r => exact sameOutcome_requireDatapath h (sameToHost_respond (sameToHost_ranRounds h .gen k c r) _ _)
  | round | keyadv | ctrinc => exact sameOutcome_requireDatapath h (sameToHost_observe h _)

theorem sameOutcome_step : sameOutcome (step s) (step t) := by
  have ⟨_, _, hs, ht, hoff, hacc, _⟩ := h
  rw [step_eq_stepWith, step_eq_stepWith]
  cases ho : t.offered with
  | nil => rw [stepWith_of_nil hs (hoff.trans ho), stepWith_of_nil ht ho]; exact h
  | cons o rest =>
    cases hd : decode o with
    | ok i =>
      rw [stepWith_of_decode_ok hs (hoff.trans ho) hd, stepWith_of_decode_ok ht ho hd]
      exact sameOutcome_exec (sameToHost_take h o rest) i
    | error why =>
      rw [stepWith_of_decode_error hs (hoff.trans ho) hd, stepWith_of_decode_error ht ho hd, hacc]
      rfl

end

theorem sameOutcome_iff {x y : Host.Outcome State Fault Refusal} : sameOutcome x y ↔
    (∃ s t, x = .next s ∧ y = .next t ∧ sameToHost s t) ∨ (∃ f, x = .fault f ∧ y = .fault f) ∨
      (∃ q, x = .refused q ∧ y = .refused q) := by
  cases x <;> cases y <;> simp [sameOutcome, eq_comm]

section
variable (M : Host.Core) (n : Nat) {s : M.State}

theorem run_succ_of_fault {f : M.Fault} (h : M.step s = .fault f) : M.run (n + 1) s = .fault f := by
  rw [Host.Core.run, h]

theorem run_succ_of_refused {q : M.Refusal} (h : M.step s = .refused q) : M.run (n + 1) s = .refused q := by
  rw [Host.Core.run, h]

end

/-- What each step of a machine keeps, a run of it keeps. -/
theorem run_keeps (M : Host.Core) (P : M.State → Prop) (hstep : ∀ s t, P s → M.step s = .next t → P t) {n : Nat}
    {s t : M.State} (hs : P s) (h : M.run n s = .next t) : P t := by
  induction n generalizing s with
  | zero => cases h; exact hs
  | succ n ih =>
    cases hm : M.step s with
    | next u => exact ih (hstep s u hs hm) ((run_succ M n s u hm).symm.trans h)
    | fault f => cases (run_succ_of_fault M n hm).symm.trans h
    | refused q => cases (run_succ_of_refused M n hm).symm.trans h

end Sys2Proof.Machine

namespace Sys2Proof.Proofs

open Machine Safety

/-- Settles O38: by induction on the number of steps, each of which keeps two states alike to the host. -/
theorem hiddenStateIsNeverSeen : Obligations.HiddenStateIsNeverSeen := by
  intro n
  induction n with
  | zero => exact fun s t h => h
  | succ n ih =>
    intro s t h
    obtain ⟨s', t', hs, ht, hsame⟩ | ⟨f, hs, ht⟩ | ⟨q, hs, ht⟩ := sameOutcome_iff.1 (sameOutcome_step h)
    · rw [runSteps, runSteps, run_succ core n s s' hs, run_succ core n t t' ht]
      exact ih s' t' hsame
    · rw [runSteps, runSteps, run_succ_of_fault core n hs, run_succ_of_fault core n ht]
      rfl
    · rw [runSteps, runSteps, run_succ_of_refused core n hs, run_succ_of_refused core n ht]
      rfl

end Sys2Proof.Proofs
end

section
/-! The datapath's primitives and the round (spec/00_scope.md R12, spec/40_round_function.md R93, R94): the product halves,
the low half as a product of words, and the inverse of a round. -/

namespace Sys2Proof.Machine

theorem toNat_mul_toNat_le (m a : Word) : m.toNat * a.toNat ≤ (2 ^ 32 - 1) * (2 ^ 32 - 1) :=
  Nat.mul_le_mul (Nat.le_pred_of_lt m.isLt) (Nat.le_pred_of_lt a.isLt)

theorem toNat_mulhilo_fst (m a : Word) : (mulhilo m a).1.toNat = m.toNat * a.toNat / 2 ^ 32 := by
  have := toNat_mul_toNat_le m a
  rw [mulhilo_fst, BitVec.toNat_ofNat, Nat.mod_eq_of_lt (by omega)]

theorem toNat_mulhilo_snd (m a : Word) : (mulhilo m a).2.toNat = m.toNat * a.toNat % 2 ^ 32 := by
  rw [mulhilo_snd, BitVec.toNat_ofNat, Nat.mod_mod]

theorem mulhilo_snd_eq_mul (m a : Word) : (mulhilo m a).2 = m * a := by
  apply BitVec.eq_of_toNat_eq
  rw [toNat_mulhilo_snd, BitVec.toNat_mul]

theorem ofNat_toNat_mul_toNat (a b : Word) : BitVec.ofNat 32 (a.toNat * b.toNat) = a * b := by
  rw [BitVec.ofNat_mul, BitVec.ofNat_toNat, BitVec.ofNat_toNat, BitVec.setWidth_eq, BitVec.setWidth_eq]

/-- The middle term of an exclusive or of three comes back by the same two other terms. -/
theorem xor_cancel_sides (p x k : Word) : (p ^^^ x ^^^ k) ^^^ p ^^^ k = x := by
  rw [BitVec.xor_comm p x, BitVec.xor_assoc x p k, BitVec.xor_assoc, BitVec.xor_assoc, BitVec.xor_self, BitVec.xor_zero]

end Sys2Proof.Machine

namespace Sys2Proof.Proofs

open Machine Safety

/-- Settles O11: quotient and remainder of the exact product, whose size bounds the quotient. -/
theorem productIsExactAndSumWraps : Obligations.ProductIsExactAndSumWraps := by
  refine fun m a => ⟨?product, ?high, ?sum⟩
  case product => rw [toNat_mulhilo_fst, toNat_mulhilo_snd, Nat.div_add_mod]
  case high =>
    have := toNat_mul_toNat_le m a
    rw [toNat_mulhilo_fst]
    omega
  case sum => rw [toNat_add32, Nat.add_comm]

theorem M0_mul_IM0 : M0 * IM0 = 1 := by decide

theorem M1_mul_IM1 : M1 * IM1 = 1 := by decide

/-- Multiplying by the inverse undoes multiplying by the multiplier, in either order (R93). -/
theorem mul_mul_cancel_of_mul_eq_one {m im : Word} (h : m * im = 1) (a : Word) : m * a * im = a ∧ m * (a * im) = a := by
  constructor
  · rw [BitVec.mul_comm m a, BitVec.mul_assoc, h, mul_one]
  · rw [BitVec.mul_comm a im, ← BitVec.mul_assoc, h, one_mul]

/-- R93 after R90. -/
theorem unround_roundFn (c : Counter) (k : Key) : unround (roundFn c k) k = c := by
  have h0 := (mul_mul_cancel_of_mul_eq_one M0_mul_IM0 c.w0).1
  have h1 := (mul_mul_cancel_of_mul_eq_one M1_mul_IM1 c.w2).1
  simp only [unround, roundFn, ofNat_toNat_mul_toNat, mulhilo_snd_eq_mul, h0, h1, xor_cancel_sides]

/-- R90 after R93. -/
theorem roundFn_unround (d : Counter) (k : Key) : roundFn (unround d k) k = d := by
  have h0 := (mul_mul_cancel_of_mul_eq_one M0_mul_IM0 d.w3).2
  have h1 := (mul_mul_cancel_of_mul_eq_one M1_mul_IM1 d.w1).2
  have hxor : ∀ p x k : Word, p ^^^ (x ^^^ p ^^^ k) ^^^ k = x := fun p x k => by
    rw [BitVec.xor_comm x p, BitVec.xor_comm p (p ^^^ x ^^^ k), xor_cancel_sides]
  simp only [unround, roundFn, ofNat_toNat_mul_toNat, mulhilo_snd_eq_mul, h0, h1, hxor]

theorem roundFn_bijective (k : Key) : Function.Bijective fun c : Counter => roundFn c k :=
  Function.bijective_iff_has_inverse.2
    ⟨fun d => unround d k, fun c => unround_roundFn c k, fun d => roundFn_unround d k⟩

/-- Settles O12: R93's function undoes the round on either side. -/
theorem roundIsInvertible : Obligations.RoundIsInvertible :=
  ⟨by decide, by decide, fun k =>
    ⟨roundFn_bijective k, fun c => unround_roundFn c k, fun d => roundFn_unround d k⟩⟩

/-- Settles O13: a key word enters one output word, by an exclusive or, and the products cancel. -/
theorem roundIsLinearInTheKey : Obligations.RoundIsLinearInTheKey := by
  have hcancel : ∀ x a b : Word, (x ^^^ a) ^^^ (x ^^^ b) = a ^^^ b := fun x a b => by
    rw [BitVec.xor_comm x a, BitVec.xor_assoc, ← BitVec.xor_assoc x x b, BitVec.xor_self, BitVec.zero_xor]
  exact fun c k k' => ⟨hcancel _ _ _, BitVec.xor_self, hcancel _ _ _, BitVec.xor_self⟩

end Sys2Proof.Proofs
end

section
/-! The key schedule iterated and the mix (spec/41_key_schedule.md R103, spec/42_generator_commands.md R110): the sums
after `j` advances, and the last round of a mix. -/

namespace Sys2Proof.Machine

theorem toNat_keyadvN (j : Nat) (k : Key) :
    (keyadvN j k).w0.toNat = (0x9E3779B9 * j + k.w0.toNat) % 2 ^ 32 ∧
      (keyadvN j k).w1.toNat = (0xBB67AE85 * j + k.w1.toNat) % 2 ^ 32 := by
  induction j generalizing k with
  | zero =>
    simp only [keyadvN, Nat.mul_zero, Nat.zero_add, Nat.mod_eq_of_lt k.w0.isLt, Nat.mod_eq_of_lt k.w1.isLt, and_self]
  | succ j ih =>
    obtain ⟨h0, h1⟩ := ih (keyadv k)
    rw [keyadvN, h0, h1, keyadv_w0, keyadv_w1, toNat_add32, toNat_add32, toNat_KA0, toNat_KA1]
    omega

/-- Multiples of an odd addend below 2^32 of them differ modulo 2^32. -/
theorem eq_of_multiple_add_mod_eq {a x i j : Nat} (ha : Nat.Coprime (2 ^ 32) a) (hi : i < 2 ^ 32) (hj : j < 2 ^ 32)
    (h : (a * i + x) % 2 ^ 32 = (a * j + x) % 2 ^ 32) : i = j := by
  have hmul : a * i ≡ a * j [MOD 2 ^ 32] := Nat.ModEq.add_right_cancel' x h
  exact (Nat.ModEq.cancel_left_of_coprime ha hmul).eq_of_lt_of_lt hi hj

/-- The last advance of `j + 1`. -/
theorem keyadvN_succ (j : Nat) (k : Key) : keyadvN (j + 1) k = keyadv (keyadvN j k) := by
  induction j generalizing k with
  | zero => rfl
  | succ j ih => exact ih (keyadv k)

/-- R103: the last of `r + 1` rounds uses the key advanced `r` times. -/
theorem mix_succ (k : Key) (c : Counter) (r : Nat) : mix k c (r + 1) = roundFn (mix k c r) (keyadvN r k) := by
  induction r generalizing k c with
  | zero => rfl
  | succ r ih => exact ih (keyadv k) (roundFn c k)

end Sys2Proof.Machine

namespace Sys2Proof.Proofs

open Machine

/-- Settles O15: the sums are linear in the number of advances, and both addends are odd. -/
theorem keyScheduleIteratesWithoutRepeating : Obligations.KeyScheduleIteratesWithoutRepeating := by
  refine ⟨toNat_keyadvN, fun i j k hi hj hne => ?_, mix_succ⟩
  obtain ⟨hi0, hi1⟩ := toNat_keyadvN i k
  obtain ⟨hj0, hj1⟩ := toNat_keyadvN j k
  have hodd0 : Nat.Coprime (2 ^ 32) 0x9E3779B9 := by norm_num
  have hodd1 : Nat.Coprime (2 ^ 32) 0xBB67AE85 := by norm_num
  refine ⟨fun h => hne ?_, fun h => hne ?_⟩
  · exact eq_of_multiple_add_mod_eq hodd0 hi hj (by rw [← hi0, ← hj0, h])
  · exact eq_of_multiple_add_mod_eq hodd1 hi hj (by rw [← hi1, ← hj1, h])

/-- R110 as the loop: one iteration rounds with the key not yet advanced, and advances it. -/
theorem mix_eq_iterate (k : Key) (c : Counter) (r : Nat) :
    mix k c r = ((fun p : Key × Counter => (keyadv p.1, roundFn p.2 p.1))^[r] (k, c)).2 := by
  induction r generalizing k c with
  | zero => rfl
  | succ r ih => rw [Function.iterate_succ_apply, ← ih, mix]

/-- Settles O16: by induction on the number of rounds. -/
theorem mixIsTheLoop : Obligations.MixIsTheLoop :=
  fun k c => ⟨rfl, fun _ => rfl, rfl, mix_eq_iterate k c⟩

theorem mix_bijective (k : Key) (r : Nat) : Function.Bijective fun c : Counter => mix k c r := by
  induction r generalizing k with
  | zero => exact Function.bijective_id
  | succ r ih => exact (ih (keyadv k)).comp (roundFn_bijective k)

end Sys2Proof.Proofs
end

section
/-! Counters as integers and as bytes (spec/20_memory.md R54, R55; spec/43_counter_increment.md R130, R134): the packing
has the counter's value, the increment adds one to it, and so CTRINC runs through all counters. -/

namespace Sys2Proof.Machine

theorem toNat_append_eq_add {n m : Nat} (x : BitVec n) (y : BitVec m) : (x ++ y).toNat = y.toNat + 2 ^ m * x.toNat := by
  rw [BitVec.toNat_append, ← Nat.shiftLeft_add_eq_or_of_lt y.isLt, Nat.shiftLeft_eq]
  ring

theorem val_eq (c : Counter) :
    val c = c.w0.toNat + 2 ^ 32 * c.w1.toNat + 2 ^ 64 * c.w2.toNat + 2 ^ 96 * c.w3.toNat := by
  simp only [val, counterWords, wordsVal]
  ring

theorem toNat_pack (c : Counter) : (pack c).toNat = val c := by
  rw [val_eq, pack, toNat_append_eq_add, toNat_append_eq_add, toNat_append_eq_add]
  ring

theorem val_lt (c : Counter) : val c < 2 ^ 128 := toNat_pack c ▸ (pack c).isLt

theorem pack_injective : Function.Injective pack := Function.LeftInverse.injective unpack_pack

theorem val_injective : Function.Injective val := by
  intro c d h
  rw [← toNat_pack, ← toNat_pack] at h
  exact pack_injective (BitVec.eq_of_toNat_eq h)

/-- R53, R54: the bytes of words have the words' value. -/
theorem bytesVal_bytesOf (ws : List Word) : bytesVal (bytesOf ws) = wordsVal ws := by
  induction ws with
  | nil => rfl
  | cons w ws ih =>
    simp only [bytesOf, bytes, List.cons_append, List.nil_append, bytesVal, wordsVal, ih, BitVec.extractLsb'_toNat,
      Nat.shiftRight_eq_div_pow]
    omega

@[simp] theorem dataOfBytes_bytesOf (c : Counter) : dataOfBytes (bytesOf (counterWords c)) = pack c := by
  have hval : bytesVal (bytesOf (counterWords c)) = (pack c).toNat := (bytesVal_bytesOf _).trans (toNat_pack c).symm
  rw [dataOfBytes, hval, BitVec.ofNat_toNat, BitVec.setWidth_eq]

theorem pow_length_cons (w : Word) (ws : List Word) :
    2 ^ (32 * (w :: ws).length) = 2 ^ 32 * 2 ^ (32 * ws.length) := by
  rw [List.length_cons, ← Nat.pow_add]
  congr 1
  omega

theorem wordsVal_lt (ws : List Word) : wordsVal ws < 2 ^ (32 * ws.length) := by
  induction ws with
  | nil => exact Nat.one_pos
  | cons w ws ih =>
    have := w.isLt
    rw [wordsVal, pow_length_cons]
    omega

/-- R130, first form: the increment adds one to the value, for any number of words. -/
theorem wordsVal_incWords (ws : List Word) :
    wordsVal (incWords true ws) = (wordsVal ws + 1) % 2 ^ (32 * ws.length) := by
  induction ws with
  | nil => rfl
  | cons w ws ih =>
    by_cases hw : w = 0xFFFFFFFF
    · have hval : wordsVal (0xFFFFFFFF :: ws) + 1 = 2 ^ 32 * (wordsVal ws + 1) := by
        have hones : (0xFFFFFFFF : Word).toNat = 0xFFFFFFFF := rfl
        rw [wordsVal, hones]
        omega
      rw [hw, hval, incWords_true_cons_ones, wordsVal, ih, pow_length_cons, Nat.mul_mod_mul_left]
      exact Nat.zero_add _
    · have hsum : (w + 1).toNat = w.toNat + 1 := by
        have hne : w.toNat ≠ 0xFFFFFFFF := fun h => hw (BitVec.eq_of_toNat_eq h)
        bv_omega
      have hval : wordsVal (w :: ws) + 1 = wordsVal ((w + 1) :: ws) := by
        rw [wordsVal, wordsVal, hsum]
        omega
      rw [incWords_true_cons_of_ne hw, hval, Nat.mod_eq_of_lt]
      exact wordsVal_lt ((w + 1) :: ws)

theorem val_ctrinc (c : Counter) : val (ctrinc c) = (val c + 1) % 2 ^ 128 := by
  rw [val, counterWords_ctrinc, wordsVal_incWords]
  rfl

theorem pack_ctrinc (c : Counter) : pack (ctrinc c) = pack c + 1 := by
  apply BitVec.eq_of_toNat_eq
  rw [toNat_pack, val_ctrinc, BitVec.toNat_add, toNat_pack]
  rfl

theorem val_ctrincN (n : Nat) (c : Counter) : val (ctrincN n c) = (val c + n) % 2 ^ 128 := by
  induction n generalizing c with
  | zero => exact (Nat.mod_eq_of_lt (val_lt c)).symm
  | succ n ih => rw [ctrincN, ih, val_ctrinc, Nat.mod_add_mod]; congr 1; omega

theorem ctrinc_bijective : Function.Bijective ctrinc := by
  refine Function.bijective_iff_has_inverse.2 ⟨fun c => unpack (pack c - 1), fun c => ?_, fun c => pack_injective ?_⟩
  · simp [pack_ctrinc]
  · rw [pack_ctrinc, pack_unpack, BitVec.sub_add_cancel]

/-- The counters within one turn of the cycle differ. -/
theorem ctrincN_injOn {c : Counter} {i j : Nat} (hi : i < 2 ^ 128) (hj : j < 2 ^ 128)
    (h : ctrincN i c = ctrincN j c) : i = j := by
  have hval := congrArg val h
  rw [val_ctrincN, val_ctrincN] at hval
  exact (Nat.ModEq.add_left_cancel' (val c) hval).eq_of_lt_of_lt hi hj

end Sys2Proof.Machine

namespace Sys2Proof.Proofs

open Machine

/-- Settles O21: the packing's value word by word, and the same value byte by byte. -/
theorem packedWordsAreTheValueAndTheBytes : Obligations.PackedWordsAreTheValueAndTheBytes := by
  refine fun c => ⟨toNat_pack c, (toNat_pack c).trans (val_eq c), ?_, dataOfBytes_bytesOf c⟩
  rw [← dataOfBytes_bytesOf, bytesOfData_dataOfBytes _ (length_bytesOf (counterWords c))]

/-- Settles O19: by induction on the number of words, with or without a carry out of the lowest. -/
theorem counterIncrementAddsOneToTheValue : Obligations.CounterIncrementAddsOneToTheValue :=
  ⟨wordsVal_incWords, counterWords_ctrinc, val_ctrinc, pack_ctrinc⟩

/-- Settles O20: the value goes up by one modulo 2^128, and determines the counter. -/
theorem counterIncrementIsACycleOfAllCounters : Obligations.CounterIncrementIsACycleOfAllCounters := by
  refine ⟨ctrinc_bijective, val_ctrincN, fun n c hn => val_injective ?_⟩
  rw [val_ctrincN, hn, Nat.add_mod_right, Nat.mod_eq_of_lt (val_lt c)]

/-- Settles O17: every round is a bijection, and so is their composition; the counters within one turn differ. -/
theorem mixIsABijectionOfTheCounter : Obligations.MixIsABijectionOfTheCounter :=
  fun k r => ⟨mix_bijective k r, fun _ _ _ hi hj hne h => hne (ctrincN_injOn hi hj ((mix_bijective k r).injective h))⟩

end Sys2Proof.Proofs
end

section
/-! Reset, one step of an idle block, and the faults it can raise (spec/10_state.md R34, spec/44_round_controller.md R140,
R141, spec/60_exceptions.md R158). -/

namespace Sys2Proof.Machine

open Safety

section
variable {s t : State} {f : Fault}

theorem requireDatapath_next_ne_fault : requireDatapath s (.next t) ≠ .fault f := by
  unfold requireDatapath
  split <;> nofun

theorem readGenerator_next_eq_fault {answer : Generator → State}
    (h : readGenerator s (fun g => .next (answer g)) = .fault f) :
    s.constructed = false ∧ f = .useBeforeConstruct s.accepted := by
  cases hc : s.constructed with
  | true =>
    simp only [readGenerator, State.generator?_of_constructed s hc] at h
    split at h
    · cases h
    · exact absurd h requireDatapath_next_ne_fault
  | false =>
    simp only [readGenerator, State.generator?_of_not_constructed s hc] at h
    split at h
    · cases h
    · cases h; exact ⟨rfl, rfl⟩

theorem execConstruct_ne_fault {k : Key} {c : Counter} {r : BitVec 8} : execConstruct k c r s ≠ .fault f := by
  unfold execConstruct
  split
  · nofun
  · exact requireDatapath_next_ne_fault

/-- The one fault of an instruction: it reads the generator before there is one (R121). -/
theorem exec_eq_fault {i : Instr} (h : exec i s = .fault f) :
    needsGenerator i = true ∧ s.constructed = false ∧ f = .useBeforeConstruct s.accepted := by
  cases i with
  | construct => exact absurd h execConstruct_ne_fault
  | next | nextb | peek => exact ⟨rfl, readGenerator_next_eq_fault h⟩
  | gen | round | keyadv | ctrinc => exact absurd h requireDatapath_next_ne_fault

theorem accept_eq_fault {i : Instr} (h : accept i s = .fault f) :
    needsGenerator i = true ∧ s.constructed = false ∧ f = .useBeforeConstruct s.accepted := by
  cases i with
  | construct => exact absurd h execConstruct_ne_fault
  | next | nextb | peek => exact ⟨rfl, readGenerator_next_eq_fault h⟩
  | gen | round | keyadv | ctrinc => exact absurd h requireDatapath_next_ne_fault

/-- An idle block faults on an invalid word it takes, or by the instruction it takes. -/
theorem stepWith_eq_fault_of_idle {act : Instr → State → Host.Outcome State Fault Refusal} (hp : s.ph = .idle)
    (h : stepWith act s = .fault f) : ∃ o rest, s.offered = o :: rest ∧
      ((∃ why, decode o = .error why ∧ f = .illegalCommand (s.accepted + commandCount o) why) ∨
       (∃ i, decode o = .ok i ∧ act i (s.take o rest) = .fault f)) := by
  cases ho : s.offered with
  | nil => cases (stepWith_of_nil hp ho).symm.trans h
  | cons o rest =>
    refine ⟨o, rest, rfl, ?_⟩
    cases hd : decode o with
    | ok i => exact .inr ⟨i, rfl, (stepWith_of_decode_ok hp ho hd).symm.trans h⟩
    | error why => cases (stepWith_of_decode_error hp ho hd).symm.trans h; exact .inl ⟨why, rfl, rfl⟩

end

/-- Only a command word can be invalid; ports decode whatever they hold (R85). -/
theorem exists_command_of_decode_eq_error {o : Offer} {why : Illegal} (h : decode o = .error why) :
    ∃ cw, o = .command cw ∧ decodeCommand cw = .error why := by
  cases o with
  | command cw => exact ⟨cw, rfl, h⟩
  | roundPorts | keyPorts | counterPorts => cases h

/-- What reads the generator is a command. -/
theorem exists_command_of_needsGenerator {o : Offer} {i : Instr} (h : decode o = .ok i) (hn : needsGenerator i = true) :
    ∃ cw, o = .command cw ∧ decodeCommand cw = .ok i := by
  cases o with
  | command cw => exact ⟨cw, rfl, h⟩
  | roundPorts | keyPorts | counterPorts => cases h; cases hn

end Sys2Proof.Machine

namespace Sys2Proof.Proofs

open Machine Safety

/-- Settles O1: the state of reset, field by field; `applyReset` differs from it in the configuration only. -/
theorem resetLeavesUnconstructedIdleEmpty : Obligations.ResetLeavesUnconstructedIdleEmpty :=
  ⟨⟨rfl, rfl, rfl, rfl, rfl, rfl⟩, fun s =>
    ⟨s.applyReset_constructed, s.applyReset_ph, rfl, s.applyReset_responses, s.applyReset_offered, s.applyReset_cfg⟩⟩

/-- Settles O2: one equation of the step per case of the phase and of what is offered. -/
theorem stepRunsTheDecodedInstruction : Obligations.StepRunsTheDecodedInstruction := by
  intro s
  rw [step_eq_stepWith]
  exact ⟨fun _ _ _ hp ho => stepWith_of_decode_ok hp ho, fun _ _ _ hp ho => stepWith_of_decode_error hp ho,
    stepWith_of_nil, stepWith_of_run⟩

theorem decodeTableWord_eq_some_iff (nbits w : Nat) (i : Instr) :
    decodeTableWord nbits w = some i ↔ decode (offerOfTableWord nbits w) = .ok i := by
  unfold decodeTableWord
  cases decode (offerOfTableWord nbits w) <;> simp

/-- Settles O3: the word is offered first and the block is idle, so its step takes it. -/
theorem offeredTableWordRunsInTheNextStep : Obligations.OfferedTableWordRunsInTheNextStep := by
  intro s nbits w i hw
  have hd := (decodeTableWord_eq_some_iff nbits w i).1 hw
  exact stepWith_of_decode_ok (s := s.withFetchWord nbits w) (s.offerFirst_ph _) (s.offerFirst_offered _) hd

/-- Settles O4: the eight words are evaluated. -/
theorem specCommandWordsDecode : Obligations.SpecCommandWordsDecode :=
  ⟨rfl, rfl, rfl, rfl, rfl, rfl, rfl, rfl⟩

/-- Settles O32: a fault is an invalid word's or that of a read before construction, and both come from a command word,
which counts as one more accepted. -/
theorem aFaultNamesItsCommand : Obligations.AFaultNamesItsCommand := by
  intro s f hp h
  obtain ⟨o, rest, ho, ⟨why, hd, rfl⟩ | ⟨i, hd, hi⟩⟩ := stepWith_eq_fault_of_idle hp h
  · obtain ⟨cw, rfl, hcw⟩ := exists_command_of_decode_eq_error hd
    exact ⟨cw, rest, ho, .inl ⟨why, hcw, rfl⟩⟩
  · obtain ⟨hn, hc, rfl⟩ := exec_eq_fault hi
    obtain ⟨cw, rfl, hcw⟩ := exists_command_of_needsGenerator hd hn
    exact ⟨cw, rest, ho, .inr ⟨i, hcw, hn, hc, rfl⟩⟩

/-- Settles O23: a leaf module is guarded by the configuration alone and observes its function. -/
theorem leafModulesShowTheirFunction : Obligations.LeafModulesShowTheirFunction :=
  fun _ =>
    ⟨fun hs => ⟨fun _ _ => exec_of_answers (.round hs), fun _ => exec_of_answers (.keyadv hs),
      fun _ => exec_of_answers (.ctrinc hs)⟩,
    fun hs => ⟨fun _ _ => requireDatapath_of_not_supported _ hs, fun _ => requireDatapath_of_not_supported _ hs,
      fun _ => requireDatapath_of_not_supported _ hs⟩⟩

/-- Settles O30: the mix of one round is the round, that of none the counter. -/
theorem genOfOneRoundIsRound : Obligations.GenOfOneRoundIsRound :=
  fun _ _ _ hs => ⟨⟨_, exec_of_answers (.gen hs), rfl⟩, ⟨_, exec_of_answers (.gen hs), rfl⟩⟩

end Sys2Proof.Proofs
end

section
/-! The frame of every instruction (spec/10_state.md R20 to R30): what it leaves unchanged, and what the commands that run
rounds leave in the hidden registers (spec/44_round_controller.md R145). -/

namespace Sys2Proof.Machine

open Safety

section
variable {i : Instr} {s t : State} (h : exec i s = .next t)
include h

theorem exec_keeps_cfg : t.cfg = s.cfg := by
  cases answers_of_exec h with
  | constructFails | constructStores | next | nextb | peek | gen | round | keyadv | ctrinc => rfl

theorem exec_keeps_offered : t.offered = s.offered := by
  cases answers_of_exec h with
  | constructFails | constructStores | next | nextb | peek | gen | round | keyadv | ctrinc => rfl

theorem exec_command_keeps_leafOutputs (hi : isCommand i = true) : t.leafOutputs = s.leafOutputs := by
  cases answers_of_exec h with
  | constructFails | constructStores | next | nextb | peek | gen => rfl
  | round | keyadv | ctrinc => cases hi

theorem exec_keeps_stored (hi : isConstruct i = false) :
    t.k = s.k ∧ t.rounds = s.rounds ∧ t.constructed = s.constructed := by
  cases answers_of_exec h with
  | constructFails | constructStores => cases hi
  | next | nextb | peek | gen | round | keyadv | ctrinc => exact ⟨rfl, rfl, rfl⟩

/-- An instruction that runs no rounds writes no hidden register. -/
theorem exec_keeps_hidden (hd : isDraw i = false) (hg : ∀ k c r, i ≠ .gen k c r) :
    t.sk = s.sk ∧ t.sc = s.sc ∧ t.ri = s.ri ∧ t.rt = s.rt ∧ t.kind = s.kind ∧ t.ph = s.ph := by
  cases answers_of_exec h with
  | next | nextb => cases hd
  | gen => exact absurd rfl (hg _ _ _)
  | constructFails | constructStores | peek | round | keyadv | ctrinc => exact ⟨rfl, rfl, rfl, rfl, rfl, rfl⟩

theorem exec_draw_hidden (hd : isDraw i = true) : t.ri = s.rounds ∧ t.rt = s.rounds ∧
    t.sc = mix s.k s.c s.rounds.toNat ∧ t.sk = keyadvN s.rounds.toNat s.k ∧ t.ph = .idle := by
  cases answers_of_exec h with
  | next | nextb => exact ⟨rfl, rfl, rfl, rfl, rfl⟩
  | constructFails | constructStores | peek | gen | round | keyadv | ctrinc => cases hd

theorem exec_keeps_idle (hp : s.ph = .idle) : t.ph = .idle := by
  cases answers_of_exec h with
  | next | nextb | gen => rfl
  | constructFails | constructStores | peek | round | keyadv | ctrinc => exact hp

end

/-- What NEXT and NEXTB do on a constructed block, but for the kind in one form (R112, R113). -/
def State.drew (s : State) (kind : Kind) : State :=
  ((s.ranRounds kind s.k s.c s.rounds).advanceCounter).respond .ok (pack (mix s.k s.c s.rounds.toNat))

/-- The two encodings of a draw's output are one (R54). -/
theorem exec_draw {i : Instr} {s : State} (hd : isDraw i = true) (hs : supported s.cfg = true)
    (hc : s.constructed = true) : ∃ kind, exec i s = .next (s.drew kind) := by
  cases i with
  | next => exact ⟨.next, exec_of_answers (.next hs hc)⟩
  | nextb =>
    have hdraw := exec_of_answers (.nextb hs hc)
    rw [dataOfBytes_bytesOf] at hdraw
    exact ⟨.nextb, hdraw⟩
  | construct | peek | gen | round | keyadv | ctrinc => cases hd

theorem isDraw_eq_false_of_leaf {i : Instr} (hi : isCommand i = false) : isDraw i = false := by
  cases i with
  | construct | next | nextb | peek | gen => cases hi
  | round | keyadv | ctrinc => rfl

theorem ctrinc_ne (c : Counter) : ctrinc c ≠ c := by
  intro h
  have hone : 1 = 0 := ctrincN_injOn (c := c) (by omega) (by omega) h
  cases hone

end Sys2Proof.Machine

namespace Sys2Proof.Proofs

open Machine Safety

/-- Settles O44: register by register, by inversion of `exec`. -/
theorem everyInstructionKeepsItsFrame : Obligations.EveryInstructionKeepsItsFrame := by
  refine fun i s t h => ⟨exec_keeps_cfg h, exec_keeps_offered h, exec_keeps_accepted h, exec_command_keeps_leafOutputs h,
    exec_keeps_stored h, exec_keeps_counter h, fun hi => exec_keeps_hidden h ?draws ?gen, exec_draw_hidden h,
    ?nextKind, ?nextbKind, ?genHidden⟩
  case draws =>
    obtain ⟨_, _, _, rfl⟩ | rfl | hleaf := hi
    · rfl
    · rfl
    · exact isDraw_eq_false_of_leaf hleaf
  case gen => rintro k c r rfl; simp [isCommand] at hi
  case nextKind => rintro rfl; cases answers_of_exec h with | next => rfl
  case nextbKind => rintro rfl; cases answers_of_exec h with | nextb => rfl
  case genHidden =>
    rintro k c r rfl
    cases answers_of_exec h with | gen => exact ⟨rfl, rfl, rfl, rfl, rfl, rfl⟩

/-- Settles O46: a draw answers the mix of the stored counter and leaves the next one, which has another mix; the others
leave what they read. -/
theorem drawsDifferAndTheOthersAreIdempotent : Obligations.DrawsDifferAndTheOthersAreIdempotent := by
  intro s hs
  refine ⟨fun i j hi hj hc => ?draws, fun hc => ?peek, fun k c r => ?gen, fun k c r => ?construct⟩
  case draws =>
    obtain ⟨kind, hfirst⟩ := exec_draw hi hs hc
    obtain ⟨kind', hsecond⟩ := exec_draw (s := s.drew kind) hj hs hc
    refine ⟨_, _, _, _, hfirst, hsecond, rfl, rfl, rfl, rfl, fun h => ?_⟩
    exact ctrinc_ne s.c ((mix_bijective s.k s.rounds.toNat).injective (pack_injective h)).symm
  case peek => exact ⟨_, _, _, exec_of_answers (.peek hs hc), exec_of_answers (.peek hs hc), rfl, rfl⟩
  case gen => exact ⟨_, _, _, exec_of_answers (.gen hs), exec_of_answers (.gen hs), rfl, rfl, rfl⟩
  case construct =>
    exact ⟨_, _, exec_of_answers (.constructStores hs), exec_of_answers (.constructStores hs), rfl⟩

end Sys2Proof.Proofs
end

section
/-! The stream of a generator (spec/42_generator_commands.md section 4). -/

namespace Sys2Proof.Proofs

open Machine Safety

/-- The outputs of the counters from `c` on, `n` of them. -/
def streamResponses (k : Key) (c : Counter) (rounds : BitVec 8) (n : Nat) : List Response :=
  (List.range n).map fun i => ⟨.ok, pack (mix k (ctrincN i c) rounds.toNat)⟩

theorem streamResponses_succ (k : Key) (c : Counter) (rounds : BitVec 8) (n : Nat) :
    streamResponses k c rounds (n + 1) =
      ⟨.ok, pack (mix k c rounds.toNat)⟩ :: streamResponses k (ctrinc c) rounds n := by
  simp only [streamResponses, List.range_succ_eq_map, List.map_cons, List.map_map]
  rfl

/-- An idle constructed block draws for each of the offers. -/
theorem runSteps_draws (draws : List Instr) (hdraws : ∀ i ∈ draws, isDraw i = true) (s : State) (hp : s.ph = .idle)
    (hs : supported s.cfg = true) (hc : s.constructed = true) (ho : s.offered = draws.map encode) :
    ∃ t, runSteps draws.length s = .next t ∧
      t.responses = s.responses ++ streamResponses s.k s.c s.rounds draws.length ∧ t.c = ctrincN draws.length s.c ∧
      t.k = s.k ∧ t.rounds = s.rounds ∧ t.constructed = true ∧ t.ph = .idle ∧ t.offered = [] := by
  induction draws generalizing s with
  | nil => exact ⟨s, rfl, (List.append_nil _).symm, rfl, rfl, rfl, hc, hp, ho⟩
  | cons i draws ih =>
    obtain ⟨kind, hexec⟩ := exec_draw (s := s.take (encode i) (draws.map encode)) (hdraws i List.mem_cons_self) hs hc
    have hstep := (stepWith_of_decode_ok hp ho (decode_encode i)).trans hexec
    obtain ⟨t, hrun, hres, hcounter, hrest⟩ :=
      ih (fun j hj => hdraws j (List.mem_cons_of_mem i hj)) ((s.take (encode i) (draws.map encode)).drew kind)
        rfl hs hc rfl
    refine ⟨t, (run_succ core _ s _ hstep).trans hrun, ?_, hcounter, hrest⟩
    rw [hres, List.length_cons, streamResponses_succ]
    exact List.append_assoc ..

/-- The draw of O36's offers: NEXT or NEXTB. -/
def drawOf (words : Bool) : Instr := if words then .next else .nextb

theorem isDraw_drawOf (words : Bool) : isDraw (drawOf words) = true := by
  cases words <;> rfl

theorem encode_drawOf (words : Bool) : encode (drawOf words) = if words then encode .next else encode .nextb := by
  cases words <;> rfl

/-- Settles O36: by induction on the draws; each answers the mix of the stored counter and leaves the next one. -/
theorem drawsFollowTheCounterStream : Obligations.DrawsFollowTheCounterStream := by
  intro draws s hp hs hc ho
  have hoffered : s.offered = (draws.map drawOf).map encode := by
    rw [ho, List.map_map]
    exact List.map_congr_left fun words _ => (encode_drawOf words).symm
  obtain ⟨t, hrun, hres, hcounter, hrest⟩ :=
    runSteps_draws (draws.map drawOf) (List.forall_mem_map.2 fun words _ => isDraw_drawOf words) s hp hs hc hoffered
  rw [List.length_map] at hrun hres hcounter
  exact ⟨t, hrun, hres, fun i => val_ctrincN i s.c, hcounter ▸ val_ctrincN draws.length s.c, hrest⟩

end Sys2Proof.Proofs
end

section
/-! The invariant of the machine (spec/10_state.md R26 to R30, spec/44_round_controller.md R140 to R143): idle and busy
blocks apart, and that every step of either machine keeps it. -/

namespace Sys2Proof.Machine

open Safety

theorem inv_iff_of_idle {s : State} (hp : s.ph = .idle) : inv s ↔
    s.accepted = s.responses.length ∧ (supported s.cfg = false → s.constructed = false) := by
  simp [inv, answered, roundsBounded, scratchFollowsGenerator, unsupportedStaysEmpty, hp]

theorem inv_iff_of_run {s : State} (hp : s.ph = .run) : inv s ↔
    s.accepted = s.responses.length + 1 ∧ s.ri.toNat ≤ s.rt.toNat ∧
      (s.kind ≠ .gen → s.constructed = true ∧ s.rt = s.rounds ∧ s.sc = mix s.k s.c s.ri.toNat ∧
        s.sk = keyadvN s.ri.toNat s.k) ∧
      supported s.cfg = true := by
  simp [inv, answered, roundsBounded, scratchFollowsGenerator, unsupportedStaysEmpty, hp]

/-- A busy block that has not passed its rounds has its step. -/
theorem exists_runStep_eq_next {s : State} (hp : s.ph = .run) (hle : s.ri.toNat ≤ s.rt.toNat) :
    ∃ t, runStep s = .next t := by
  obtain hlt | heq := Nat.lt_or_eq_of_le hle
  · exact ⟨_, runStep_of_lt hp hlt⟩
  · exact ⟨_, runStep_of_eq hp (BitVec.eq_of_toNat_eq heq)⟩

theorem runStep_keeps_cfg {s t : State} (h : runStep s = .next t) : t.cfg = s.cfg := by
  obtain ⟨-, -, rfl⟩ | ⟨-, -, rfl⟩ := runStep_cases h
  · exact s.roundStep_cfg
  · exact s.finish_cfg

end Sys2Proof.Machine

namespace Sys2Proof.Proofs

open Machine Safety

section
variable {s t : State} (hinv : inv s)
include hinv

theorem inv_roundStep (hp : s.ph = .run) (hlt : s.ri.toNat < s.rt.toNat) : inv s.roundStep := by
  obtain ⟨hacc, -, hscratch, hsup⟩ := (inv_iff_of_run hp).1 hinv
  have hri := State.roundStep_ri_toNat hlt
  refine (inv_iff_of_run (s.roundStep_ph.trans hp)).2 ⟨hacc, by rw [hri]; exact hlt, fun hk => ?_, hsup⟩
  obtain ⟨hc, hrt, hsc, hsk⟩ := hscratch hk
  rw [hri, mix_succ, keyadvN_succ]
  exact ⟨hc, hrt, by rw [State.roundStep_sc, hsc, hsk]; rfl, by rw [State.roundStep_sk, hsk]; rfl⟩

theorem inv_finish (hp : s.ph = .run) : inv s.finish := by
  obtain ⟨hacc, -, -, hsup⟩ := (inv_iff_of_run hp).1 hinv
  exact (inv_iff_of_idle s.finish_ph).2 ⟨by simp [hacc], by simp [hsup]⟩

theorem inv_runStep (h : runStep s = .next t) : inv t := by
  obtain ⟨hp, hlt, rfl⟩ | ⟨hp, -, rfl⟩ := runStep_cases h
  · exact inv_roundStep hinv hp hlt
  · exact inv_finish hinv hp

variable {o : Offer} {rest : List Offer} {i : Instr} (hp : s.ph = .idle) (ho : s.offered = o :: rest)
  (hd : decode o = .ok i)
include hp hd

include ho in
/-- An instruction carried out whole is answered at once. -/
theorem inv_exec (h : exec i (s.take o rest) = .next t) : inv t := by
  obtain ⟨hacc, hempty⟩ := (inv_iff_of_idle hp).1 hinv
  obtain ⟨rs, hres, htaken⟩ := step_appends_per_command hp ((stepWith_of_decode_ok hp ho hd).trans h)
  have hcfg : t.cfg = s.cfg := (exec_keeps_cfg h).trans (s.take_cfg o rest)
  refine (inv_iff_of_idle (exec_keeps_idle h hp)).2 ⟨by simp [hres, htaken, hacc], fun hsup => ?_⟩
  rw [hcfg] at hsup
  have hnot := not_congr (constructed_after_exec_iff h)
  simpa [hempty hsup, hsup] using hnot

/-- A command that loads the scratch registers with the generator, or is a GEN, is the one not yet answered. -/
theorem inv_loadScratch {kind : Kind} {k : Key} {c : Counter} {r : BitVec 8} (hi : isCommand i = true)
    (hsup : supported s.cfg = true)
    (hgen : kind ≠ .gen → s.constructed = true ∧ k = s.k ∧ c = s.c ∧ r = s.rounds) :
    inv ((s.take o rest).loadScratch kind k c r) := by
  obtain ⟨hacc, -⟩ := (inv_iff_of_idle hp).1 hinv
  refine (inv_iff_of_run rfl).2 ⟨by simp [commandCount_of_decode hd, hi, hacc], Nat.zero_le _, fun hk => ?_, hsup⟩
  obtain ⟨hc, rfl, rfl, rfl⟩ := hgen hk
  exact ⟨hc, rfl, rfl, rfl⟩

include ho in
theorem inv_accept (h : accept i (s.take o rest) = .next t) : inv t := by
  obtain ⟨-, -, h⟩ | ⟨hsup, hc, ⟨rfl, rfl⟩ | ⟨rfl, rfl⟩⟩ | ⟨k, c, r, rfl, hsup, rfl⟩ := accept_cases h
  · exact inv_exec hinv hp ho hd h
  · exact inv_loadScratch hinv hp hd rfl hsup fun _ => ⟨hc, rfl, rfl, rfl⟩
  · exact inv_loadScratch hinv hp hd rfl hsup fun _ => ⟨hc, rfl, rfl, rfl⟩
  · exact inv_loadScratch hinv hp hd rfl hsup fun hk => absurd rfl hk

end

/-- Settles O54: reset is idle, with nothing accepted and nothing answered. -/
theorem invHoldsAtReset : Obligations.InvHoldsAtReset := (inv_iff_of_idle rfl).2 ⟨rfl, fun _ => rfl⟩

/-- Settles O55: by the cases of a step, an idle block's instruction and a round or the finish of a busy one. -/
theorem everyStepKeepsTheInvariant : Obligations.EveryStepKeepsTheInvariant := by
  intro s t hinv h
  obtain ⟨-, -, rfl⟩ | ⟨o, rest, i, hp, ho, hd, h⟩ | ⟨-, h⟩ := step_cases h
  · exact hinv
  · exact inv_exec hinv hp ho hd h
  · exact inv_runStep hinv h

theorem controllerStep_keeps_inv {s t : State} (hinv : inv s) (h : controllerStep s = .next t) : inv t := by
  obtain ⟨-, -, rfl⟩ | ⟨o, rest, i, hp, ho, hd, h⟩ | ⟨-, h⟩ := controllerStep_cases h
  · exact hinv
  · exact inv_accept hinv hp ho hd h
  · exact inv_runStep hinv h

/-- Under the invariant neither kind of step finds nothing enabled: a busy block has a round or its finish, and what an
idle one takes faults for other reasons. -/
theorem stepWith_ne_noStepEnabled {act : Instr → State → Host.Outcome State Fault Refusal} {s : State} (hinv : inv s)
    (hact : ∀ i t, act i t ≠ .fault .noStepEnabled) : stepWith act s ≠ .fault .noStepEnabled := by
  intro h
  cases hp : s.ph with
  | run =>
    obtain ⟨-, hle, -⟩ := (inv_iff_of_run hp).1 hinv
    obtain ⟨t, ht⟩ := exists_runStep_eq_next hp hle
    cases h.symm.trans ((stepWith_of_run hp).trans ht)
  | idle =>
    obtain ⟨o, rest, -, ⟨why, -, hf⟩ | ⟨i, -, hi⟩⟩ := stepWith_eq_fault_of_idle hp h
    · cases hf
    · exact hact i _ hi

theorem exec_ne_noStepEnabled (i : Instr) (s : State) : exec i s ≠ .fault .noStepEnabled :=
  fun h => nomatch (exec_eq_fault h).2.2

theorem accept_ne_noStepEnabled (i : Instr) (s : State) : accept i s ≠ .fault .noStepEnabled :=
  fun h => nomatch (accept_eq_fault h).2.2

/-- Settles O56: by the cases of the controller's step, as O55, with ACCEPT's loading of the scratch registers. -/
theorem everyControllerStepKeepsTheInvariant : Obligations.EveryControllerStepKeepsTheInvariant :=
  fun _ hinv => ⟨fun _ => controllerStep_keeps_inv hinv, stepWith_ne_noStepEnabled hinv accept_ne_noStepEnabled,
    stepWith_ne_noStepEnabled hinv exec_ne_noStepEnabled⟩

end Sys2Proof.Proofs
end

section
/-! Runs on this hardware and off it (spec/60_exceptions.md R155, R156; spec/70_reset_and_hazards.md R181, R182). -/

namespace Sys2Proof.Proofs

open Machine Safety

/-- On this hardware, and no error answered so far. -/
def errorFree (s : State) : Prop := s.cfg = Config.hardware ∧ noError s

section
variable {s t : State} (hs : errorFree s)
include hs

/-- Responses kept, or an ok appended: no error either way. -/
theorem errorFree_of_responses (hcfg : t.cfg = s.cfg)
    (hres : t.responses = s.responses ∨ ∃ r, t.responses = s.responses ++ [r] ∧ r.err = .ok) : errorFree t := by
  obtain ⟨hhw, herr⟩ := hs
  refine ⟨hcfg.trans hhw, ?_⟩
  obtain hres | ⟨r, hres, hok⟩ := hres
  · exact fun r hr => herr r (hres ▸ hr)
  · intro r' hr'
    rw [hres, List.mem_append, List.mem_singleton] at hr'
    obtain hr' | rfl := hr'
    · exact herr r' hr'
    · exact hok

theorem errorFree_exec {i : Instr} (h : exec i s = .next t) : errorFree t := by
  refine errorFree_of_responses hs (exec_keeps_cfg h) ?_
  cases hi : isCommand i with
  | false => exact .inl (exec_leaf_keeps_responses h hi)
  | true =>
    obtain ⟨r, hres, hok | ⟨-, hcause⟩⟩ := exec_command_appends_one h hi
    · exact .inr ⟨r, hres, hok⟩
    · rw [hs.1] at hcause
      cases hcause

theorem errorFree_accept {i : Instr} (h : accept i s = .next t) : errorFree t := by
  obtain ⟨-, -, h⟩ | ⟨-, -, ⟨-, rfl⟩ | ⟨-, rfl⟩⟩ | ⟨k, c, r, -, -, rfl⟩ := accept_cases h
  · exact errorFree_exec hs h
  · exact hs
  · exact hs
  · exact hs

theorem errorFree_runStep (h : runStep s = .next t) : errorFree t := by
  refine errorFree_of_responses hs (runStep_keeps_cfg h) ?_
  obtain ⟨-, -, rfl⟩ | ⟨-, -, rfl⟩ := runStep_cases h
  · exact .inl s.roundStep_responses
  · exact .inr ⟨_, s.finish_responses, rfl⟩

theorem errorFree_step (h : step s = .next t) : errorFree t := by
  obtain ⟨-, -, rfl⟩ | ⟨o, rest, i, -, -, -, h⟩ | ⟨-, h⟩ := step_cases h
  · exact hs
  · exact errorFree_exec (s := s.take o rest) hs h
  · exact errorFree_runStep hs h

theorem errorFree_controllerStep (h : controllerStep s = .next t) : errorFree t := by
  obtain ⟨-, -, rfl⟩ | ⟨o, rest, i, -, -, -, h⟩ | ⟨-, h⟩ := controllerStep_cases h
  · exact hs
  · exact errorFree_accept (s := s.take o rest) hs h
  · exact errorFree_runStep hs h

end

/-- Settles O57: each step of either machine keeps `errorFree`, so every run does. -/
theorem noErrorEverOnThisHardware : Obligations.NoErrorEverOnThisHardware := by
  intro n s t hhw herr h
  obtain h | h := h
  · exact run_keeps core errorFree (fun _ _ => errorFree_step) ⟨hhw, herr⟩ h
  · exact run_keeps controller errorFree (fun _ _ => errorFree_controllerStep) ⟨hhw, herr⟩ h

/-- Unconstructed and idle, with the configuration `cfg`. -/
def emptyOn (cfg : Config) (s : State) : Prop := s.constructed = false ∧ s.ph = .idle ∧ s.cfg = cfg

theorem emptyOn_step {cfg : Config} (hsup : supported cfg = false) {s t : State} (hs : emptyOn cfg s)
    (h : step s = .next t) : emptyOn cfg t := by
  have ⟨hc, hp, hcfg⟩ := hs
  obtain ⟨-, -, rfl⟩ | ⟨o, rest, i, -, -, -, h⟩ | ⟨hrun, -⟩ := step_cases h
  · exact hs
  · have hnot := not_congr (constructed_after_exec_iff h)
    have hempty : t.constructed = false := by simpa [hc, hcfg, hsup] using hnot
    exact ⟨hempty, exec_keeps_idle h hp, (exec_keeps_cfg h).trans hcfg⟩
  · simp [hp] at hrun

theorem exists_configError? {cfg : Config} (hbad : cfg.w ≠ 32 ∨ 2 * cfg.kn ≠ cfg.n) :
    ∃ e, configError? cfg = some e := by
  rw [← Option.ne_none_iff_exists', ne_eq, configError?_eq_none_iff]
  omega

/-- Settles O58: nothing is ever constructed off the datapath's configuration, so every command stops or fails as in the
first state. -/
theorem anIllConfiguredInstanceIsNeverConstructed : Obligations.AnIllConfiguredInstanceIsNeverConstructed := by
  intro n s t hbad hc hp h
  obtain ⟨e, herr⟩ := exists_configError? hbad
  have hsup : supported s.cfg = false := supported_eq_false_of_configError? herr
  obtain ⟨htc, htp, htcfg⟩ := run_keeps core (emptyOn s.cfg) (fun _ _ => emptyOn_step hsup) ⟨hc, hp, rfl⟩ h
  have hbadt : t.cfg.w ≠ 32 ∨ 2 * t.cfg.kn ≠ t.cfg.n := htcfg ▸ hbad
  obtain ⟨hnext, hnextb, hpeek⟩ := drawsAndPeekFaultBeforeConstruct t htc (hbadt.imp_right .inl)
  refine ⟨htc, htp, htcfg, fun k c r => ⟨e, ?_, herr, exec_of_answers (.constructFails (htcfg ▸ herr))⟩,
    hnext, hnextb, hpeek, fun k c r => (genAnswersTheMixOfItsOperands t k c r).2 hbadt⟩
  rintro rfl
  simpa using (configError?_eq_some_iff s.cfg .ok).1 herr

/-- On the datapath's configuration an instruction that has the generator it reads is carried out. -/
theorem exists_exec_eq_next {i : Instr} {s : State} (hs : supported s.cfg = true)
    (hn : needsGenerator i = true → s.constructed = true) : ∃ t, exec i s = .next t := by
  cases i with
  | construct => exact ⟨_, exec_of_answers (.constructStores hs)⟩
  | next => exact ⟨_, exec_of_answers (.next hs (hn rfl))⟩
  | nextb => exact ⟨_, exec_of_answers (.nextb hs (hn rfl))⟩
  | peek => exact ⟨_, exec_of_answers (.peek hs (hn rfl))⟩
  | gen => exact ⟨_, exec_of_answers (.gen hs)⟩
  | round => exact ⟨_, exec_of_answers (.round hs)⟩
  | keyadv => exact ⟨_, exec_of_answers (.keyadv hs)⟩
  | ctrinc => exact ⟨_, exec_of_answers (.ctrinc hs)⟩

theorem dutiesKept_cons {constructed : Bool} {o : Offer} {rest : List Offer}
    (h : dutiesKept constructed (o :: rest) = true) : ∃ i, decode o = .ok i ∧
      (needsGenerator i = true → constructed = true) ∧ dutiesKept (constructed || isConstruct i) rest = true := by
  cases hd : decode o with
  | error why => simp [dutiesKept, hd] at h
  | ok i =>
    simp only [dutiesKept, hd, Bool.and_eq_true, Bool.or_eq_true, Bool.not_eq_true'] at h
    exact ⟨i, rfl, fun hn => h.1.resolve_left (by simp [hn]), h.2⟩

/-- Settles O59: by induction on what is offered; each step takes one offer and answers it if it is a command. -/
theorem aRunWithDutiesKeptEndsWell : Obligations.ARunWithDutiesKeptEndsWell := by
  intro os
  induction os with
  | nil => exact fun s hp _ hacc ho _ => ⟨s, rfl, ho, hp, rfl, hacc.symm⟩
  | cons o rest ih =>
    intro s hp hcfg hacc ho hduties
    have hsup : supported s.cfg = true := (supported_iff s.cfg).2 hcfg
    obtain ⟨i, hd, hn, hrest⟩ := dutiesKept_cons hduties
    obtain ⟨u, hu⟩ := exists_exec_eq_next (s := s.take o rest) hsup hn
    have hstep : step s = .next u := (stepWith_of_decode_ok hp ho hd).trans hu
    obtain ⟨rs, hres, htaken⟩ := step_appends_per_command hp hstep
    have haccu : u.accepted = s.accepted + commandCount o := exec_keeps_accepted hu
    have hconstructed : u.constructed = (s.constructed || isConstruct i) := by
      rw [Bool.eq_iff_iff, constructed_after_exec_iff hu]
      simp [hsup]
    obtain ⟨t, hrun, hended⟩ := ih u (exec_keeps_idle hu hp) ((exec_keeps_cfg hu).trans hcfg)
      (by simp [hres, htaken, hacc]) (exec_keeps_offered hu) (hconstructed ▸ hrest)
    refine ⟨t, (run_succ core rest.length s u hstep).trans hrun, ?_⟩
    rwa [haccu, Nat.add_assoc] at hended

end Sys2Proof.Proofs
end

section
/-! The controller's steps for one command and the command-level step (spec/44_round_controller.md R140 to R145). -/

namespace Sys2Proof.Machine

open Safety

/-- `RunsRounds s i kind k c r`: accepted in `s`, command `i` runs `r` rounds on the key `k` and the counter `c` (R141). -/
inductive RunsRounds (s : State) : Instr → Kind → Key → Counter → BitVec 8 → Prop
  | next (hc : s.constructed = true) : RunsRounds s .next .next s.k s.c s.rounds
  | nextb (hc : s.constructed = true) : RunsRounds s .nextb .nextb s.k s.c s.rounds
  | gen {k : Key} {c : Counter} {r : BitVec 8} : RunsRounds s (.gen k c r) .gen k c r

/-- What such a command leaves when it is answered (R145). -/
def State.ranCommand (s : State) (kind : Kind) (k : Key) (c : Counter) (r : BitVec 8) : State :=
  ((s.ranRounds kind k c r).finishCounter).respond .ok (pack (mix k c r.toNat))

section
variable {s : State} {i : Instr} {kind : Kind} {k : Key} {c : Counter} {r : BitVec 8} (hs : supported s.cfg = true)
  (hi : RunsRounds s i kind k c r)
include hs hi

theorem accept_of_runsRounds : accept i s = .next (s.loadScratch kind k c r) := by
  cases hi with
  | next hc => exact readGenerator_of_constructed _ hs hc
  | nextb hc => exact readGenerator_of_constructed _ hs hc
  | gen => exact requireDatapath_of_supported _ hs

theorem exec_of_runsRounds : exec i s = .next (s.ranCommand kind k c r) := by
  cases hi with
  | next hc => exact exec_of_answers (.next hs hc)
  | nextb hc =>
    rw [exec_of_answers (.nextb hs hc), dataOfBytes_bytesOf]
    rfl
  | gen => exact exec_of_answers (.gen hs)

end

theorem runsRounds_of_draw_or_gen {s : State} {i : Instr} {k : Key} {c : Counter} {r : BitVec 8}
    (h : isDraw i = true ∧ s.constructed = true ∧ k = s.k ∧ c = s.c ∧ r = s.rounds ∨ i = .gen k c r) :
    ∃ kind, RunsRounds s i kind k c r := by
  obtain ⟨hd, hc, rfl, rfl, rfl⟩ | rfl := h
  · cases i with
    | next => exact ⟨_, .next hc⟩
    | nextb => exact ⟨_, .nextb hc⟩
    | construct | peek | gen | round | keyadv | ctrinc => cases hd
  · exact ⟨_, .gen⟩

/-- Where the generator is not read, it does not matter for what it would be; where it is, a draw runs rounds. -/
theorem readGenerator_eq_or_runsRounds {s : State} {i : Instr} {kind : Kind}
    (body body' : Generator → Host.Outcome State Fault Refusal)
    (hi : s.constructed = true → RunsRounds s i kind s.k s.c s.rounds) :
    readGenerator s body = readGenerator s body' ∨
      (supported s.cfg = true ∧ ∃ kind k c r, RunsRounds s i kind k c r) := by
  cases hc : s.constructed with
  | false => exact .inl (by simp [readGenerator, hc])
  | true =>
    cases hs : supported s.cfg with
    | true => exact .inr ⟨rfl, _, _, _, _, hi hc⟩
    | false => exact .inl (by simp [readGenerator, hc, hs])

/-- ACCEPT does what `exec` does, or what `exec` does is the running of rounds. -/
theorem accept_eq_exec_or_runsRounds (i : Instr) (s : State) :
    accept i s = exec i s ∨ (supported s.cfg = true ∧ ∃ kind k c r, RunsRounds s i kind k c r) := by
  cases i with
  | construct | peek | round | keyadv | ctrinc => exact .inl rfl
  | next => exact readGenerator_eq_or_runsRounds _ _ .next
  | nextb => exact readGenerator_eq_or_runsRounds _ _ .nextb
  | gen k c r =>
    cases hs : supported s.cfg with
    | true => exact .inr ⟨rfl, _, _, _, _, .gen⟩
    | false =>
      exact .inl ((requireDatapath_of_not_supported _ hs).trans (requireDatapath_of_not_supported _ hs).symm)

/-- After `n` ROUNDSTEPs the loaded scratch registers hold the mix of `n` rounds (R145). -/
theorem runController_loadScratch (s : State) (kind : Kind) (k : Key) (c : Counter) (r : BitVec 8) {n : Nat}
    (hn : n ≤ r.toNat) : runController n (s.loadScratch kind k c r) = .next
      { s.loadScratch kind k c r with sk := keyadvN n k, sc := mix k c n, ri := BitVec.ofNat 8 n } := by
  have hrun := runController_rounds (n := n) (s := s.loadScratch kind k c r) rfl (by simpa using hn)
  have hri : (s.loadScratch kind k c r).ri.toNat + n = n := Nat.zero_add n
  rw [hri] at hrun
  exact hrun

/-- A busy block with the rounds it has left done. -/
def State.roundsDone (s : State) : State :=
  { s with
    sk := keyadvN (s.rt.toNat - s.ri.toNat) s.sk
    sc := mix s.sk s.sc (s.rt.toNat - s.ri.toNat)
    ri := s.rt }

/-- The rounds left and the FINISH of a busy block. -/
theorem runController_finishes {s : State} (hp : s.ph = .run) (hle : s.ri.toNat ≤ s.rt.toNat) :
    runController (s.rt.toNat - s.ri.toNat + 1) s = .next s.roundsDone.finish := by
  have hrounds := runController_rounds (n := s.rt.toNat - s.ri.toNat) hp (by omega)
  rw [Nat.add_sub_cancel' hle, BitVec.ofNat_toNat, BitVec.setWidth_eq] at hrounds
  have hstep : controllerStep s.roundsDone = .next s.roundsDone.finish :=
    (controllerStep_of_run (s := s.roundsDone) hp).trans (runStep_of_eq hp rfl)
  exact (run_add controller _ 1 s s.roundsDone hrounds).trans (run_succ controller 0 s.roundsDone _ hstep)

/-- The rounds and the FINISH of a loaded command come to what its command-level step leaves. -/
theorem runController_loadScratch_finish (s : State) (kind : Kind) (k : Key) (c : Counter) (r : BitVec 8) :
    runController (r.toNat + 1) (s.loadScratch kind k c r) = .next (s.ranCommand kind k c r) := by
  have hdone : (s.loadScratch kind k c r).roundsDone.finish = s.ranCommand kind k c r := by cases kind <;> rfl
  rw [← hdone]
  exact runController_finishes (s := s.loadScratch kind k c r) rfl (Nat.zero_le _)

theorem acceptEnabled_eq_true_iff (s : State) : acceptEnabled s = true ↔ s.ph = .idle ∧ s.offered ≠ [] := by
  simp [acceptEnabled]

theorem step_keeps_idle {s t : State} (hp : s.ph = .idle) (h : step s = .next t) : t.ph = .idle := by
  obtain ⟨-, -, rfl⟩ | ⟨o, rest, i, -, -, -, h⟩ | ⟨hrun, -⟩ := step_cases h
  · exact hp
  · exact exec_keeps_idle h hp
  · simp [hp] at hrun

theorem runController_one {s t : State} (h : controllerStep s = .next t) : runController 1 s = .next t :=
  run_succ controller 0 s t h

/-- The controller's step is the command-level step, or some of its steps come to the same next state. -/
theorem controller_simulates_step {s : State} (hp : s.ph = .idle) :
    controllerStep s = step s ∨ ∃ m t, 1 ≤ m ∧ step s = .next t ∧ runController m s = .next t := by
  rw [controllerStep_eq_stepWith, step_eq_stepWith]
  cases ho : s.offered with
  | nil => exact .inl ((stepWith_of_nil hp ho).trans (stepWith_of_nil hp ho).symm)
  | cons o rest =>
    cases hd : decode o with
    | error why => exact .inl ((stepWith_of_decode_error hp ho hd).trans (stepWith_of_decode_error hp ho hd).symm)
    | ok i =>
      rw [stepWith_of_decode_ok hp ho hd, stepWith_of_decode_ok hp ho hd]
      obtain hsame | ⟨hs, kind, k, c, r, hi⟩ := accept_eq_exec_or_runsRounds i (s.take o rest)
      · exact .inl hsame
      · have haccept := (controllerStep_of_decode_ok hp ho hd).trans (accept_of_runsRounds hs hi)
        exact .inr ⟨r.toNat + 1 + 1, _, Nat.le_add_left .., exec_of_runsRounds hs hi,
          (run_succ controller _ s _ haccept).trans (runController_loadScratch_finish ..)⟩

end Sys2Proof.Machine

namespace Sys2Proof.Proofs

open Machine Safety

/-- Settles O47: each step needs a phase and a state of `RI` and `RT` that the others exclude. -/
theorem atMostOneControllerStepIsEnabled : Obligations.AtMostOneControllerStepIsEnabled := by
  intro s
  have haccept := acceptEnabled_eq_true_iff s
  have hround := roundStepEnabled_eq_true_iff s
  have hfinish := finishEnabled_eq_true_iff s
  refine ⟨haccept, hround, hfinish, ?acceptRound, ?acceptFinish, ?roundFinish, fun h => ?accepts, fun h => ?rounds,
    fun h => ?finishes⟩
  case acceptRound => rw [haccept, hround]; rintro ⟨⟨hp, -⟩, hrun, -⟩; simp [hp] at hrun
  case acceptFinish => rw [haccept, hfinish]; rintro ⟨⟨hp, -⟩, hrun, -⟩; simp [hp] at hrun
  case roundFinish => rw [hround, hfinish]; rintro ⟨⟨-, hlt⟩, -, heq⟩; simp [heq] at hlt
  case accepts =>
    obtain ⟨hp, hne⟩ := haccept.1 h
    obtain ⟨o, rest, ho⟩ := List.exists_cons_of_ne_nil hne
    refine ⟨o, rest, ho, ?_⟩
    cases hd : decode o with
    | ok i => exact controllerStep_of_decode_ok hp ho hd
    | error why => exact controllerStep_of_decode_error hp ho hd
  case rounds =>
    obtain ⟨hp, hlt⟩ := hround.1 h
    exact (controllerStep_of_run hp).trans (runStep_of_lt hp hlt)
  case finishes =>
    obtain ⟨hp, heq⟩ := hfinish.1 h
    exact (controllerStep_of_run hp).trans (runStep_of_eq hp heq)

theorem runStep_keeps_offers {s t : State} (h : runStep s = .next t) :
    t.offered = s.offered ∧ t.accepted = s.accepted := by
  obtain ⟨-, -, rfl⟩ | ⟨-, -, rfl⟩ := runStep_cases h
  · exact ⟨s.roundStep_offered, s.roundStep_accepted⟩
  · exact ⟨s.finish_offered, s.finish_accepted⟩

/-- Settles O50: a round and the finish carry the offers along, and the rounds left and the finish come to an idle block
that still has them. -/
theorem commandsAreHeldWhileBusy : Obligations.CommandsAreHeldWhileBusy := by
  refine ⟨fun s t o hp h => ?_, fun s hp hle hne => ?_⟩
  · rw [controllerStep_of_run hp] at h
    obtain ⟨hoff, hacc⟩ := runStep_keeps_offers h
    have hmore : runStep (s.offer o) = mapNext (·.offer o) (runStep s) := carriesLater_runStep s [o]
    rw [h] at hmore
    exact ⟨hoff, hacc, (controllerStep_of_run (s := s.offer o) hp).trans hmore⟩
  · have hkept : s.roundsDone.finish.offered = s.offered := s.roundsDone.finish_offered
    exact ⟨_, runController_finishes hp hle, hkept, s.roundsDone.finish_accepted,
      (acceptEnabled_eq_true_iff _).2 ⟨s.roundsDone.finish_ph, by rwa [hkept]⟩⟩

/-- Settles O51: ACCEPT loads the scratch registers, `j` rounds make the mix of `j` of them, and the finish leaves what the
command-level step leaves. -/
theorem oneCommandIsRtPlusTwoControllerSteps : Obligations.OneCommandIsRtPlusTwoControllerSteps := by
  intro s o rest i k0 c0 rt hp ho hd hs hi
  obtain ⟨kind, hi⟩ := runsRounds_of_draw_or_gen (s := s.take o rest) hi
  have haccept := (controllerStep_of_decode_ok hp ho hd).trans (accept_of_runsRounds hs hi)
  refine ⟨fun j hj => ?rounds, ?whole⟩
  case rounds =>
    have hri : (BitVec.ofNat 8 j).toNat = j :=
      (BitVec.toNat_ofNat j 8).trans (Nat.mod_eq_of_lt (Nat.lt_of_le_of_lt hj rt.isLt))
    exact ⟨_, (run_succ controller j s _ haccept).trans (runController_loadScratch _ _ _ _ _ hj), rfl, rfl,
      hri, rfl, rfl, rfl, rfl, rfl, rfl, rfl⟩
  case whole =>
    exact ⟨_, (stepWith_of_decode_ok hp ho hd).trans (exec_of_runsRounds hs hi),
      (run_succ controller _ s _ haccept).trans (runController_loadScratch_finish ..)⟩

/-- Settles O52: by induction on the command-level steps, each of which the controller comes to in one or more of its
own. -/
theorem controllerRefinesTheCommandLevel : Obligations.ControllerRefinesTheCommandLevel := by
  intro n
  induction n with
  | zero => exact fun s _ => ⟨0, Nat.le_refl 0, rfl⟩
  | succ n ih =>
    intro s hp
    have hsim := controller_simulates_step hp
    cases h : step s with
    | next t =>
      have hreach : ∃ m, 1 ≤ m ∧ runController m s = .next t := by
        obtain hsame | ⟨m, t', hm, ht', hrun⟩ := hsim
        · exact ⟨1, Nat.le_refl 1, runController_one (hsame.trans h)⟩
        · cases h.symm.trans ht'
          exact ⟨m, hm, hrun⟩
      obtain ⟨m, hm, hrun⟩ := hreach
      obtain ⟨m', hm', hrest⟩ := ih t (step_keeps_idle hp h)
      exact ⟨m + m', by omega, (run_add controller m m' s t hrun).trans (hrest.trans (run_succ core n s t h).symm)⟩
    | fault f =>
      have hsame : controllerStep s = .fault f := (hsim.resolve_right (by simp [h])).trans h
      exact ⟨n + 1, Nat.le_refl _, (run_succ_of_fault controller n hsame).trans (run_succ_of_fault core n h).symm⟩
    | refused q =>
      have hsame : controllerStep s = .refused q := (hsim.resolve_right (by simp [h])).trans h
      exact ⟨n + 1, Nat.le_refl _, (run_succ_of_refused controller n hsame).trans (run_succ_of_refused core n h).symm⟩

end Sys2Proof.Proofs
end

section
/-! The text form's digits (spec/30_encoding.md R83): numbers written in hexadecimal and decimal read back. -/

namespace Sys2Proof.Machine

theorem hexValue_hexChar {d : Nat} (hd : d < 16) : hexValue (hexChar d) = some d := by
  revert d; decide

theorem decValue_hexChar {d : Nat} (hd : d < 10) : decValue (hexChar d) = some d := by
  revert d; decide

theorem digitsNat_cons {base d : Nat} {value : Char → Option Nat} {ch : Char} (h : value ch = some d) (acc : Nat)
    (rest : List Char) : digitsNat base value acc (ch :: rest) = digitsNat base value (acc * base + d) rest := by
  rw [digitsNat, h]

@[simp] theorem length_hexText (n v : Nat) : (hexText n v).length = n := by
  induction n with
  | zero => rfl
  | succ n ih => rw [hexText, List.length_cons, ih]

/-- `n` hexadecimal digits read back as the number modulo `16 ^ n`. -/
theorem digitsNat_hexText (n v acc : Nat) :
    digitsNat 16 hexValue acc (hexText n v) = some (acc * 16 ^ n + v % 16 ^ n) := by
  induction n generalizing acc with
  | zero => simp [hexText, digitsNat, Nat.mod_one]
  | succ n ih =>
    rw [hexText, digitsNat_cons (hexValue_hexChar (Nat.mod_lt _ (by decide))), ih, Nat.pow_succ, Nat.mod_mul]
    congr 1
    ring

@[simp] theorem readWord_wordText (w : Word) : readWord (wordText w) = some w := by
  have hval : BitVec.ofNat 32 (0 * 16 ^ 8 + w.toNat % 16 ^ 8) = w := by
    apply BitVec.eq_of_toNat_eq
    rw [BitVec.toNat_ofNat]
    omega
  rw [readWord, wordText, if_pos (length_hexText 8 _), digitsNat_hexText, Option.map_some, hval]

@[simp] theorem readByte_byteText (b : Byte) : readByte (byteText b) = some b := by
  have hval : BitVec.ofNat 8 (0 * 16 ^ 2 + b.toNat % 16 ^ 2) = b := by
    apply BitVec.eq_of_toNat_eq
    rw [BitVec.toNat_ofNat]
    omega
  rw [readByte, byteText, if_pos (length_hexText 2 _), digitsNat_hexText, Option.map_some, hval]

theorem roundsText_ne_nil (r : BitVec 8) : roundsText r ≠ [] := by
  unfold roundsText
  split
  · nofun
  · split <;> nofun

/-- A round count has one, two or three decimal digits. -/
theorem digitsNat_roundsText (r : BitVec 8) : digitsNat 10 decValue 0 (roundsText r) = some r.toNat := by
  have hr := r.isLt
  have hdigit : ∀ {d : Nat}, d < 10 → decValue (hexChar d) = some d := decValue_hexChar
  unfold roundsText
  split_ifs with h10 h100
  · rw [digitsNat_cons (hdigit h10), digitsNat, Nat.zero_mul, Nat.zero_add]
  · rw [digitsNat_cons (hdigit (by omega)), digitsNat_cons (hdigit (by omega)), digitsNat]
    congr 1
    omega
  · rw [digitsNat_cons (hdigit (by omega)), digitsNat_cons (hdigit (by omega)), digitsNat_cons (hdigit (by omega)),
      digitsNat]
    congr 1
    omega

@[simp] theorem readRounds_roundsText (r : BitVec 8) : readRounds (roundsText r) = some r := by
  obtain ⟨ch, rest, ht⟩ := List.exists_cons_of_ne_nil (roundsText_ne_nil r)
  have hdigits := digitsNat_roundsText r
  rw [ht] at hdigits ⊢
  simp [readRounds, hdigits, Nat.le_of_lt_succ r.isLt]

end Sys2Proof.Machine
end

section
/-! Tokens (spec/30_encoding.md R83; log entry 13): a line printed from its tokens reads back as them. -/

namespace Sys2Proof.Machine

/-- A character that neither ends a token nor starts a comment. -/
def plainChar (ch : Char) : Bool := ch != '#' && ch != ' ' && ch != ','

/-- A text that reads as one token. -/
def isToken (t : List Char) : Prop := t ≠ [] ∧ ∀ ch ∈ t, plainChar ch = true

/-- A text before which a token ends. -/
def endsToken (rest : List Char) : Prop := rest = [] ∨ ∃ more, rest = ' ' :: more ∨ rest = ',' :: more

theorem tokens_append_of_plain {t : List Char} (ht : ∀ ch ∈ t, plainChar ch = true) (rest cur : List Char) :
    tokens (t ++ rest) cur = tokens rest (t.reverse ++ cur) := by
  induction t generalizing cur with
  | nil => rfl
  | cons ch t ih =>
    have hch : (ch ≠ '#' ∧ ch ≠ ' ') ∧ ch ≠ ',' := by simpa [plainChar] using ht ch List.mem_cons_self
    obtain ⟨⟨hcomment, hspace⟩, hcomma⟩ := hch
    rw [List.cons_append, tokens, if_neg hcomment, if_neg hspace, if_neg hcomma,
      ih (fun x hx => ht x (List.mem_cons_of_mem ch hx)), List.reverse_cons, List.append_assoc, List.singleton_append]

theorem tokens_of_endsToken {rest : List Char} (hrest : endsToken rest) (cur : List Char) :
    tokens rest cur = flush cur ++ tokens rest [] := by
  obtain rfl | ⟨more, rfl | rfl⟩ := hrest
  · simp [tokens, flush]
  · simp [tokens, flush]
  · simp [tokens, flush]

theorem tokens_token_append {t rest : List Char} (ht : isToken t) (hrest : endsToken rest) :
    tokens (t ++ rest) [] = t :: tokens rest [] := by
  obtain ⟨hne, hplain⟩ := ht
  have hflush : flush t.reverse = [t] := by simp [flush, hne]
  rw [tokens_append_of_plain hplain, List.append_nil, tokens_of_endsToken hrest, hflush, List.singleton_append]

theorem endsToken_space (more : List Char) : endsToken (' ' :: more) := .inr ⟨more, .inl rfl⟩

theorem endsToken_comma (more : List Char) : endsToken (',' :: more) := .inr ⟨more, .inr rfl⟩

@[simp] theorem tokens_space (more : List Char) : tokens (' ' :: more) [] = tokens more [] := rfl

@[simp] theorem tokens_comma (more : List Char) : tokens (',' :: more) [] = [','] :: tokens more [] := rfl

theorem tokens_spaced_append {ts : List (List Char)} (hts : ∀ t ∈ ts, isToken t) {rest : List Char}
    (hrest : endsToken rest) : tokens (spaced ts ++ rest) [] = ts ++ tokens rest [] := by
  induction ts with
  | nil => rfl
  | cons t ts ih =>
    have ht := hts t List.mem_cons_self
    cases ts with
    | nil => exact tokens_token_append ht hrest
    | cons u us =>
      have hmore := ih fun x hx => hts x (List.mem_cons_of_mem t hx)
      rw [spaced, List.append_assoc, List.cons_append, tokens_token_append ht (endsToken_space _), tokens_space, hmore]
      · rfl
      · nofun

theorem plainChar_hexChar (d : Nat) : plainChar (hexChar d) = true := by
  unfold hexChar
  split <;> decide

theorem isToken_hexText (n v : Nat) : isToken (hexText (n + 1) v) := by
  refine ⟨nofun, ?_⟩
  generalize n + 1 = m
  induction m with
  | zero => nofun
  | succ m ih => exact List.forall_mem_cons.2 ⟨plainChar_hexChar _, ih⟩

theorem isToken_roundsText (r : BitVec 8) : isToken (roundsText r) := by
  refine ⟨roundsText_ne_nil r, ?_⟩
  unfold roundsText
  split_ifs <;> simp [plainChar_hexChar]

theorem isToken_of_mem_map_wordText {ws : List Word} : ∀ t ∈ ws.map wordText, isToken t :=
  List.forall_mem_map.2 fun _ _ => isToken_hexText 7 _

theorem isToken_of_mem_map_byteText {bs : List Byte} : ∀ t ∈ bs.map byteText, isToken t :=
  List.forall_mem_map.2 fun _ _ => isToken_hexText 1 _

end Sys2Proof.Machine
end

section
/-! Command lines (spec/30_encoding.md R83, R84): the tokens of a printed command and of an expected response, and what
they read back as. -/

namespace Sys2Proof.Machine

open Safety

/-- The tokens of the operands of CONSTRUCT and GEN. -/
def operandTokens (k : Key) (c : Counter) (r : BitVec 8) : List (List Char) :=
  (keyWords k).map wordText ++ [','] :: (counterWords c).map wordText ++ [','] :: [roundsText r]

theorem tokens_operandsText_append (k : Key) (c : Counter) (r : BitVec 8) {rest : List Char} (hrest : endsToken rest) :
    tokens (operandsText k c r ++ rest) [] = operandTokens k c r ++ tokens rest [] := by
  simp only [operandsText, operandTokens, List.append_assoc, List.cons_append]
  rw [tokens_spaced_append isToken_of_mem_map_wordText (endsToken_comma _), tokens_comma, tokens_space,
    tokens_spaced_append isToken_of_mem_map_wordText (endsToken_comma _), tokens_comma, tokens_space,
    tokens_token_append (isToken_roundsText r) hrest]
  rfl

theorem tokens_mnemonic_operandsText_append {m : List Char} (hm : isToken m) (k : Key) (c : Counter) (r : BitVec 8)
    {rest : List Char} (hrest : endsToken rest) :
    tokens (m ++ ' ' :: operandsText k c r ++ rest) [] = m :: operandTokens k c r ++ tokens rest [] := by
  rw [List.append_assoc, List.cons_append, tokens_token_append hm (endsToken_space _), tokens_space,
    tokens_operandsText_append k c r hrest]
  rfl

/-- The tokens of a command's line. -/
def instrTokens : Instr → List (List Char)
  | .construct k c r => textConstruct :: operandTokens k c r
  | .next => [textNext]
  | .nextb => [textNextb]
  | .peek => [textPeek]
  | .gen k c r => textGen :: operandTokens k c r
  | .round _ _ => []
  | .keyadv _ => []
  | .ctrinc _ => []

theorem isToken_mnemonics : isToken textConstruct ∧ isToken textNext ∧ isToken textNextb ∧ isToken textPeek ∧
    isToken textGen := by
  simp [isToken, plainChar, textConstruct, textNext, textNextb, textPeek, textGen]

theorem tokens_instrText_append {i : Instr} {l rest : List Char} (hl : instrText i = some l) (hrest : endsToken rest) :
    tokens (l ++ rest) [] = instrTokens i ++ tokens rest [] := by
  obtain ⟨hconstruct, hnext, hnextb, hpeek, hgen⟩ := isToken_mnemonics
  cases i with
  | construct k c r => cases hl; exact tokens_mnemonic_operandsText_append hconstruct k c r hrest
  | next => cases hl; exact tokens_token_append hnext hrest
  | nextb => cases hl; exact tokens_token_append hnextb hrest
  | peek => cases hl; exact tokens_token_append hpeek hrest
  | gen k c r => cases hl; exact tokens_mnemonic_operandsText_append hgen k c r hrest
  | round | keyadv | ctrinc => cases hl

theorem readOperands_operandTokens (k : Key) (c : Counter) (r : BitVec 8) (rest : List (List Char)) :
    readOperands (operandTokens k c r ++ rest) = some (k, c, r, rest) := by
  simp [operandTokens, keyWords, counterWords, readOperands]

/-- A command's tokens read as the command, and what follows them as its tail. -/
theorem readTokens_instrTokens_append {i : Instr} (hi : isCommand i = true) (rest : List (List Char)) :
    readTokens (instrTokens i ++ rest) = readTail i rest := by
  cases i with
  | construct k c r => simp [instrTokens, readTokens, readOperands_operandTokens]
  | gen k c r =>
    have hne : textGen ≠ textConstruct := by decide
    simp [instrTokens, readTokens, readOperands_operandTokens, hne]
  | next | nextb | peek => rfl
  | round | keyadv | ctrinc => cases hi

/-- The tokens of an expected response. -/
def expectTokens : Expect → List (List Char)
  | .ok => [textOk]
  | .errWidth => [textErr, textWidth]
  | .errLength => [textErr, textLength]
  | .words out => (counterWords out).map wordText
  | .bytes bs => bs.map byteText

theorem isToken_expectTokens (e : Expect) : ∀ t ∈ expectTokens e, isToken t := by
  cases e with
  | ok | errWidth | errLength =>
    simp [expectTokens, isToken, plainChar, textOk, textErr, textWidth, textLength]
  | words out => exact isToken_of_mem_map_wordText
  | bytes bs => exact isToken_of_mem_map_byteText

theorem expectText_eq_spaced (e : Expect) : expectText e = spaced (expectTokens e) := by
  cases e <;> rfl

theorem allSome_readByte (bs : List Byte) : allSome ((bs.map byteText).map readByte) = some bs := by
  induction bs with
  | nil => rfl
  | cons b bs ih => simp only [List.map_cons, readByte_byteText, allSome, ih, Option.map_some]

/-- Sixteen tokens read as bytes, being neither a word of the vocabulary nor four words. -/
theorem readExpect_of_length_sixteen {ts : List (List Char)} (h : ts.length = 16) :
    readExpect ts = (allSome (ts.map readByte)).map .bytes := by
  have hne : ∀ us : List (List Char), us.length ≠ 16 → ts ≠ us := fun us hus heq => hus (heq ▸ h)
  have hfour : ∀ a b c d, ts ≠ [a, b, c, d] := fun a b c d => hne [a, b, c, d] (by simp)
  rw [readExpect, if_neg (hne _ (by decide)), if_neg (hne _ (by decide)), if_neg (hne _ (by decide)), if_pos h]
  exact hfour

theorem readExpect_expectTokens (e : Expect) (he : ∀ bs, e = .bytes bs → bs.length = 16) :
    readExpect (expectTokens e) = some e := by
  cases e with
  | ok | errWidth | errLength => rfl
  | words out => simp [expectTokens, counterWords, readExpect]
  | bytes bs =>
    have hlen : (bs.map byteText).length = 16 := (List.length_map _).trans (he bs rfl)
    rw [expectTokens, readExpect_of_length_sixteen hlen, allSome_readByte, Option.map_some]

theorem exists_instrText {i : Instr} (hi : isCommand i = true) : ∃ l, instrText i = some l := by
  cases i with
  | construct | next | nextb | peek | gen => exact ⟨_, rfl⟩
  | round | keyadv | ctrinc => cases hi

section
variable {i : Instr} (hi : isCommand i = true) {l : List Char} (hl : instrText i = some l)
include hi hl

theorem readLine_instrText : readLine l = some ⟨some i, none⟩ := by
  have htokens := tokens_instrText_append hl (rest := []) (.inl rfl)
  rw [List.append_nil] at htokens
  rw [readLine, htokens, readTokens_instrTokens_append hi]
  rfl

theorem readLine_instrText_expectText (e : Expect) (he : ∀ bs, e = .bytes bs → bs.length = 16) :
    readLine (l ++ ' ' :: textArrow ++ ' ' :: expectText e) = some ⟨some i, some e⟩ := by
  have harrow : isToken textArrow := by simp [isToken, plainChar, textArrow]
  have hexpect := tokens_spaced_append (isToken_expectTokens e) (rest := []) (.inl rfl)
  rw [List.append_nil] at hexpect
  rw [readLine, List.append_assoc, List.cons_append, tokens_instrText_append hl (endsToken_space _), tokens_space,
    tokens_token_append harrow (endsToken_space _), tokens_space, expectText_eq_spaced, hexpect,
    readTokens_instrTokens_append hi, readTail]
  simp [tokens, flush, readExpect_expectTokens e he]

end

end Sys2Proof.Machine

namespace Sys2Proof.Proofs

open Machine Safety

/-- Settles O60: a command's line reads back as its tokens, and those as the command. -/
theorem everyCommandLineReadsBack : Obligations.EveryCommandLineReadsBack := by
  intro i hi
  obtain ⟨l, hl⟩ := exists_instrText hi
  have hread := readLine_instrText hi hl
  exact ⟨l, hl, hread, by rw [assemble, hread], readLine_instrText_expectText hi hl⟩

end Sys2Proof.Proofs
end
